-- ==== Sys2Proof/Word.lean ====
section
/-!
DEFINITION. The word types of the KW4216: what the spec itself treats as bits (octets of a cell, words of a frame, the
32-bit elapsed count, the 16-bit day count, and sets carried one bit a member). Everything else in the model is a Nat,
an Int or an inductive type.
-/
namespace Sys2Proof

/-- One octet of a cell (R161). -/
abbrev Octet := BitVec 8

/-- One 16-bit word of a frame (R155), and a 16-bit quantity of a cell. -/
abbrev Word16 := BitVec 16

/-- The elapsed count and every stamp on it: 32 bits, wrapping (R1). -/
abbrev Word32 := BitVec 32

/-- The campus day count: 0 to 65535, wrapping (R5). -/
abbrev Day := BitVec 16

/-- A set of zones, bit n for zone Zn (R161). -/
abbrev ZoneSet := BitVec 16

/-- A set of the 32 rooms of one leg, bit n for room n (R161). -/
abbrev RoomSet := BitVec 32

/-- A set of weekdays, bit n for weekday n (R161). -/
abbrev DaySet := BitVec 7

/-- A set of the eight pages, bit n for PGn. -/
abbrev PageSet := BitVec 8

/-- A set of the four contact inputs, bit n for Cn (R179). -/
abbrev InputSet := BitVec 4

end Sys2Proof
end

