-- ==== Sys2Proof/Syntax.lean ====
section
/-!
DEFINITION. The commands of the KW4216: one constructor of `Instr` for each row of spec/opcode_table.json, with the
operands that the rule of the row gives it. The rows are the part's indivisible steps (95_what_each_step_holds.md): what
the links and contacts present in a frame, the events of a frame or of a millisecond tick, the cells received from the
legs, and the commands of the head-end with the fields of R162.
-/
namespace Sys2Proof

/-- A cell: a header of four octets and a payload of twelve, octets 4 to 15 of the cell (R161). -/
structure Cell where
  kind : Octet
  dst : Octet
  src : Octet
  tag : Octet
  payload : Vector Octet 12
  deriving DecidableEq, Repr

/-- The capture record of a trunk cell: the elapsed count, T and D at its capture frame (R13). -/
structure Capture where
  elapsed : Word32
  timeOfDay : Nat
  day : Day
  deriving DecidableEq, Repr

/-- Four octets of a cell, carried by one frame (R155). -/
abbrev Fragment := Vector Octet 4

/-- A trunk downstream frame: control word, the samples of T0 to T7, a cell fragment (R155). -/
structure TrunkFrame where
  control : Word16
  samples : Vector Word16 8
  fragment : Fragment
  deriving DecidableEq, Repr

/-- A leg upstream frame: control word and a cell fragment (R155). -/
structure LegFrame where
  control : Word16
  fragment : Fragment
  deriving DecidableEq, Repr

/-- What a receiving port meets in one switch frame. -/
inductive Arrival (α : Type) where
  /-- No frame start arrived at its expected place, or none was found in the search. -/
  | missing
  /-- A frame arrived. `spaced` says that it came one frame period after the previous one, which is what the search of
  R156 asks of a frame found while the link is out of sync. -/
  | arrived (spaced : Bool) (frame : α)
  deriving DecidableEq, Repr

/-- All that the outside presents to the switch in one switch frame: the trunk, the four legs, and the four contacts
(bit n set: the contact of Cn is closed, which is ACTIVE, 8.1). -/
structure FrameInput where
  trunk : Arrival TrunkFrame
  legs : Vector (Arrival LegFrame) 4
  contacts : InputSet
  deriving DecidableEq, Repr

/-- The commands. Ports are numbered as the queues of R173: 0 to 3 the legs, 4 the trunk. Generator 4 is EG. A field that
a cell can carry out of range keeps its width on the link, and the meaning checks it. -/
inductive Instr where
  | lineReset (contacts : InputSet)
  | frame (input : FrameInput)
  | millisecondTick
  | clockTick
  | slewTick
  | holdoverExpiry
  | generatorStepEnd (g : Fin 5)
  | pageMaxTime (p : Fin 8)
  | pageSilence (p : Fin 8)
  | ampRest
  | ampWakeLimit
  | lineTestStart (leg : Fin 4)
  | testTimeout (leg : Fin 4)
  | pollPoint (leg : Fin 4)
  | replyTimeout
  | clockStateBroadcast
  | drillStateOwedOffer (leg : Fin 4)
  | inputEdge (i : Fin 4)
  | prealertExpiry
  | evacuationToneLimit
  | trunkSyncLoss
  | trunkSyncGain
  | legDown (leg : Fin 4)
  | legUp (leg : Fin 4)
  | cellDeparture (port : Fin 5)
  | dispatchTrunkCell (cell : Cell) (cap : Capture)
  | dispatchLegCell (leg : Fin 4) (cell : Cell)
  | clockReply (leg : Fin 4) (room : Fin 32) (troom : Word32)
  | roomClear (leg : Fin 4) (room : Fin 32)
  | ampReady (leg : Fin 4) (slot : Octet)
  | lineResult (leg : Fin 4) (slot number cls impedance : Octet)
  | time (tag : Octet) (tref : Word32) (dref : Day) (wref : Octet) (force : Bool) (cap : Capture)
  | configure (tag : Octet) (number : Word16) (value : Word32) (op : Octet)
  | configureStepThreshold (tag : Octet) (value : Word32)
  | configureSlewRate (tag : Octet) (value : Word32)
  | configureDrillFloor (tag : Octet) (value : Word32)
  | configureDetectorThreshold (tag : Octet) (high : Bool) (value : Word32)
  | configureEdgeEnables (tag : Octet) (rise : Bool) (value : Word32) (op : Octet)
  | readIdent (tag : Octet) (item : Word16) (clear : Bool)
  | readClock (tag : Octet) (item : Word16) (clear : Bool)
  | readSchedule (tag : Octet) (item : Word16) (clear : Bool)
  | readEntry (tag : Octet) (item : Word16) (clear : Bool)
  | readHolidays (tag : Octet) (item : Word16) (clear : Bool)
  | readPattern (tag : Octet) (item : Word16) (clear : Bool)
  | readGenerator (tag : Octet) (item : Word16) (clear : Bool)
  | readBellQueue (tag : Octet) (item : Word16) (clear : Bool)
  | readZone (tag : Octet) (item : Word16) (clear : Bool)
  | readPage (tag : Octet) (item : Word16) (clear : Bool)
  | readRoom (tag : Octet) (item : Word16) (clear : Bool)
  | readLeg (tag : Octet) (item : Word16) (clear : Bool)
  | readTrunk (tag : Octet) (item : Word16) (clear : Bool)
  | readDrill (tag : Octet) (item : Word16) (clear : Bool)
  | readMuster (tag : Octet) (item : Word16) (clear : Bool)
  | readInputs (tag : Octet) (item : Word16) (clear : Bool)
  | readParam (tag : Octet) (item : Word16) (clear : Bool)
  | reset (tag : Octet)
  | pageOpen (tag channel prio : Octet) (zones : ZoneSet) (chime : Octet) (chimeAbsent allOrNone silenceClose : Bool)
  | pageChangeWrite (tag channel : Octet) (zones : ZoneSet)
  | pageChangeSet (tag channel : Octet) (zones : ZoneSet)
  | pageChangeClear (tag channel : Octet) (zones : ZoneSet)
  | pageClose (tag channel : Octet)
  | bellNow (tag : Octet) (zones : ZoneSet) (pattern prio : Octet)
  | patternWriteDefine (tag pattern : Octet) (toneA toneB amplitude : Word16) (inverted : Bool) (repeatCount stepCount : Octet)
  | patternWriteSteps (tag first : Octet) (words : Vector Word16 4) (count : Fin 4)
  | patternWriteStore (tag : Octet)
  | patternWriteEmpty (tag pattern : Octet)
  | scheduleWriteEntry (tag slot : Octet) (second : Word32) (days : DaySet) (zones : ZoneSet) (pattern prio : Octet) (holidaySkip catchUp : Bool)
  | scheduleWriteEmpty (tag slot : Octet)
  | scheduleCommit (tag : Octet)
  | holidayWriteAdd (tag : Octet) (day : Day)
  | holidayWriteRemove (tag : Octet) (day : Day)
  | holidayWriteClear (tag : Octet)
  | zoneAudio (tag : Octet) (zones : ZoneSet) (ga gb : Word16) (channel : Octet) (noChannel : Bool) (depth : Octet)
  | zoneMode (tag : Octet) (zones : ZoneSet) (mode : Octet)
  | supervise (tag : Octet) (zones : ZoneSet)
  | rosterWriteWrite (tag leg : Octet) (rooms : RoomSet)
  | rosterWriteSet (tag leg : Octet) (rooms : RoomSet)
  | rosterWriteClear (tag leg : Octet) (rooms : RoomSet)
  | drillStart (tag prealert : Octet) (target : Word16) (staff : ZoneSet) (autoHold : Bool)
  | drillHold (tag : Octet)
  | drillEnd (tag : Octet)
  | alarmSilence (tag : Octet)
  | dispatchWrite (tag first last : Octet) (down up urgent withhold : Bool)
  | readUnknownGroup (tag group : Octet) (item : Word16) (clear : Bool)
  | patternWriteUnknownOperation (tag op : Octet)
  | pageChangeUnknownOperation (tag channel op : Octet) (zones : ZoneSet)
  | scheduleWriteUnknownOperation (tag slot op : Octet)
  | holidayWriteUnknownOperation (tag op : Octet)
  | rosterWriteUnknownOperation (tag leg op : Octet) (rooms : RoomSet)
  deriving DecidableEq, Repr

end Sys2Proof
end

