-- ==== Sys2Proof/Decode.lean ====
section
/-!
DEFINITION. Reading a command from bits. spec/opcode_table.json gives no row any bits, so `decodeTableWord` reads none.
What the spec does lay out in bits is the cell: the address plan (R161) and the payload layouts (R162), which turn a cell
received from the trunk or from a leg into the command of the table that it is (R163, R164).
-/
namespace Sys2Proof

/-- The table's rows carry no bits: no word spells a command. -/
def decodeTableWord (_nbits _w : Nat) : Option Instr := none

/-! ## Octets of a cell -/

/-- Octet n of a cell, numbered 4 to 15 as R162 numbers the payload. -/
def Cell.octet (c : Cell) (n : Nat) : Octet := c.payload.toList.getD (n - 4) 0

/-- Octets n and n + 1, most significant first (R161). -/
def Cell.octets2 (c : Cell) (n : Nat) : Word16 := c.octet n ++ c.octet (n + 1)

/-- Octets n to n + 3, most significant first (R161). -/
def Cell.octets4 (c : Cell) (n : Nat) : Word32 := c.octets2 n ++ c.octets2 (n + 2)

/-- Bit k of octet n, as a flag. -/
def Cell.flag (c : Cell) (n k : Nat) : Bool := (c.octet n).getLsbD k

/-- The sixteen octets of a cell in order (R161). -/
def Cell.octets (c : Cell) : List Octet := c.kind :: c.dst :: c.src :: c.tag :: c.payload.toList

/-- A payload of twelve octets from a list, the octets not given sent as 0 (R161). -/
def payloadOf (l : List Octet) : Vector Octet 12 := Vector.ofFn fun i => l.getD i.val 0

/-- The cell that sixteen octets spell (R161). -/
def Cell.ofOctets (l : List Octet) : Cell :=
  { kind := l.getD 0 0, dst := l.getD 1 0, src := l.getD 2 0, tag := l.getD 3 0, payload := payloadOf (l.drop 4) }

/-! ## The address plan (R161) -/

/-- The address of the switch. -/
def switchAddr : Octet := 0x00

/-- The address of the head-end. -/
def headEndAddr : Octet := 0x01

/-- The address of the amplifier rack of a leg. -/
def ampAddr (leg : Fin 4) : Octet := BitVec.ofNat 8 (0x10 + leg.val)

/-- The leg broadcast address: all room units of a leg. -/
def broadcastAddr (leg : Fin 4) : Octet := BitVec.ofNat 8 (0x20 + leg.val)

/-- The address of a room unit. -/
def roomAddr (leg : Fin 4) (room : Fin 32) : Octet := BitVec.ofNat 8 (0x80 + 32 * leg.val + room.val)

/-- The room of a leg that an address names, if it names one. -/
def roomOn (leg : Fin 4) (a : Octet) : Option (Fin 32) := (List.finRange 32).find? fun r => a == roomAddr leg r

/-- The leg on which a room, amplifier or leg broadcast address lies. -/
def legOfAddr (a : Octet) : Option (Fin 4) :=
  (List.finRange 4).find? fun l => a == ampAddr l || a == broadcastAddr l || (roomOn l a).isSome

/-- The leg whose rooms an address names: a room of it, or all of them. A hairpin can go to these (R164). -/
def roomsLegOf (a : Octet) : Option (Fin 4) :=
  (List.finRange 4).find? fun l => a == broadcastAddr l || (roomOn l a).isSome

/-- An address of the plan; every other value is invalid (R161). -/
def validAddr (a : Octet) : Bool := a == switchAddr || a == headEndAddr || (legOfAddr a).isSome

/-- A pass-through kind: 0x40 to 0xFF. The kinds below are fixed (R161). -/
def isPassThrough (kind : Octet) : Bool := 0x40 ≤ kind.toNat

/-- The index of a pass-through kind among the 192 of the dispatch table, counted from 0x40 (R165). -/
def tableIndex (kind : Octet) : Fin 192 := Fin.ofNat 192 (kind.toNat - 0x40)

/-! ## Commands carried by cells (R162) -/

/-- READ: the group in octet 4 selects the row, the item stands in octets 5 and 6, the clear flag in bit 0 of octet 7. -/
def decodeRead (c : Cell) : Instr :=
  let item := c.octets2 5
  let clear := c.flag 7 0
  match (c.octet 4).toNat with
  | 0 => .readIdent c.tag item clear
  | 1 => .readClock c.tag item clear
  | 2 => .readSchedule c.tag item clear
  | 3 => .readEntry c.tag item clear
  | 4 => .readHolidays c.tag item clear
  | 5 => .readPattern c.tag item clear
  | 6 => .readGenerator c.tag item clear
  | 7 => .readBellQueue c.tag item clear
  | 8 => .readZone c.tag item clear
  | 9 => .readPage c.tag item clear
  | 10 => .readRoom c.tag item clear
  | 11 => .readLeg c.tag item clear
  | 12 => .readTrunk c.tag item clear
  | 13 => .readDrill c.tag item clear
  | 14 => .readMuster c.tag item clear
  | 15 => .readInputs c.tag item clear
  | 16 => .readParam c.tag item clear
  | _ => .readUnknownGroup c.tag (c.octet 4) item clear

/-- CONFIGURE: the parameters whose write does more than store a value have rows of their own. -/
def decodeConfigure (c : Cell) : Instr :=
  let v := c.octets4 6
  match (c.octets2 4).toNat with
  | 1 => .configureStepThreshold c.tag v
  | 2 => .configureSlewRate c.tag v
  | 9 => .configureDetectorThreshold c.tag true v
  | 10 => .configureDetectorThreshold c.tag false v
  | 14 => .configureDrillFloor c.tag v
  | 29 => .configureEdgeEnables c.tag true v (c.octet 10)
  | 30 => .configureEdgeEnables c.tag false v (c.octet 10)
  | _ => .configure c.tag (c.octets2 4) v (c.octet 10)

/-- PAGE CHANGE: WRITE 0, SET 1, CLEAR 2. -/
def decodePageChange (c : Cell) : Instr :=
  match (c.octet 5).toNat with
  | 0 => .pageChangeWrite c.tag (c.octet 4) (c.octets2 6)
  | 1 => .pageChangeSet c.tag (c.octet 4) (c.octets2 6)
  | 2 => .pageChangeClear c.tag (c.octet 4) (c.octets2 6)
  | _ => .pageChangeUnknownOperation c.tag (c.octet 4) (c.octet 5) (c.octets2 6)

/-- PATTERN WRITE: DEFINE 0, STEPS 1, STORE 2, EMPTY 3. -/
def decodePatternWrite (c : Cell) : Instr :=
  match (c.octet 4).toNat with
  | 0 => .patternWriteDefine c.tag (c.octet 5) (c.octets2 6) (c.octets2 8) (c.octets2 10) (c.flag 12 0) (c.octet 13) (c.octet 14)
  | 1 => .patternWriteSteps c.tag (c.octet 5) (Vector.ofFn fun i => c.octets2 (6 + 2 * i.val))
      (Fin.ofNat 4 (c.octet 14).toNat)
  | 2 => .patternWriteStore c.tag
  | 3 => .patternWriteEmpty c.tag (c.octet 5)
  | _ => .patternWriteUnknownOperation c.tag (c.octet 4)

/-- SCHEDULE WRITE: ENTRY 0, EMPTY 1. Bit 7 of the day mask is ignored. -/
def decodeScheduleWrite (c : Cell) : Instr :=
  match (c.octet 5).toNat with
  | 0 => .scheduleWriteEntry c.tag (c.octet 4) (c.octets4 6) ((c.octet 10).setWidth 7) (c.octets2 11) (c.octet 13)
      (c.octet 14) (c.flag 15 0) (c.flag 15 1)
  | 1 => .scheduleWriteEmpty c.tag (c.octet 4)
  | _ => .scheduleWriteUnknownOperation c.tag (c.octet 4) (c.octet 5)

/-- HOLIDAY WRITE: ADD 0, REMOVE 1, CLEAR 2. -/
def decodeHolidayWrite (c : Cell) : Instr :=
  match (c.octet 4).toNat with
  | 0 => .holidayWriteAdd c.tag (c.octets2 5)
  | 1 => .holidayWriteRemove c.tag (c.octets2 5)
  | 2 => .holidayWriteClear c.tag
  | _ => .holidayWriteUnknownOperation c.tag (c.octet 4)

/-- ROSTER WRITE: WRITE 0, SET 1, CLEAR 2. -/
def decodeRosterWrite (c : Cell) : Instr :=
  match (c.octet 5).toNat with
  | 0 => .rosterWriteWrite c.tag (c.octet 4) (c.octets4 6)
  | 1 => .rosterWriteSet c.tag (c.octet 4) (c.octets4 6)
  | 2 => .rosterWriteClear c.tag (c.octet 4) (c.octets4 6)
  | _ => .rosterWriteUnknownOperation c.tag (c.octet 4) (c.octet 5) (c.octets4 6)

/-- The command of one of the twenty-one command kinds, none for every other kind (R161, R162). -/
def decodeCommand (c : Cell) (cap : Capture) : Option Instr :=
  match c.kind.toNat with
  | 0x01 => some (.time c.tag (c.octets4 4) (c.octets2 8) (c.octet 10) (c.flag 11 0) cap)
  | 0x02 => some (decodeConfigure c)
  | 0x03 => some (decodeRead c)
  | 0x04 => some (.reset c.tag)
  | 0x08 => some (.pageOpen c.tag (c.octet 4) (c.octet 5) (c.octets2 6) (c.octet 8) (c.flag 9 0) (c.flag 10 0) (c.flag 10 1))
  | 0x09 => some (decodePageChange c)
  | 0x0A => some (.pageClose c.tag (c.octet 4))
  | 0x0C => some (.bellNow c.tag (c.octets2 4) (c.octet 6) (c.octet 7))
  | 0x0D => some (decodePatternWrite c)
  | 0x10 => some (decodeScheduleWrite c)
  | 0x11 => some (.scheduleCommit c.tag)
  | 0x12 => some (decodeHolidayWrite c)
  | 0x14 => some (.zoneAudio c.tag (c.octets2 4) (c.octets2 6) (c.octets2 8) (c.octet 10) (c.flag 11 0) (c.octet 12))
  | 0x15 => some (.zoneMode c.tag (c.octets2 4) (c.octet 6))
  | 0x16 => some (.supervise c.tag (c.octets2 4))
  | 0x18 => some (decodeRosterWrite c)
  | 0x1A => some (.drillStart c.tag (c.octet 4) (c.octets2 5) (c.octets2 7) (c.flag 9 0))
  | 0x1B => some (.drillHold c.tag)
  | 0x1C => some (.drillEnd c.tag)
  | 0x1D => some (.alarmSilence c.tag)
  | 0x1E => some (.dispatchWrite c.tag (c.octet 4) (c.octet 5) (c.flag 6 0) (c.flag 6 1) (c.flag 6 2) (c.flag 6 3))
  | _ => none

/-- The row of a cell received from the trunk: a command cell from the head-end to the switch is its command, every other
cell is the dispatcher's (R163). -/
def decodeTrunkCell (c : Cell) (cap : Capture) : Instr :=
  if c.src = headEndAddr ∧ c.dst = switchAddr then (decodeCommand c cap).getD (.dispatchTrunkCell c cap)
  else .dispatchTrunkCell c cap

/-- The row of a cell received from a leg: the four protocol kinds, from the right kind of source on their own leg to the
switch, are rows of their own; every other cell is the dispatcher's (R164). -/
def decodeLegCell (leg : Fin 4) (c : Cell) : Instr :=
  if c.dst = switchAddr then
    match roomOn leg c.src, decide (c.src = ampAddr leg), c.kind.toNat with
    | some r, _, 0x2A => .clockReply leg r (c.octets4 4)
    | some r, _, 0x2B => .roomClear leg r
    | none, true, 0x32 => .ampReady leg (c.octet 4)
    | none, true, 0x34 => .lineResult leg (c.octet 4) (c.octet 5) (c.octet 6) (c.octet 7)
    | _, _, _ => .dispatchLegCell leg c
  else .dispatchLegCell leg c

end Sys2Proof
end

