-- ==== Sys2Proof/Config.lean ====
section
/-!
DEFINITION. What one implementation fixes and the spec does not: FREE VALUES, constants with no body, so that no proof
can see what they are. The identification of R182 stands in Machine/Read.lean, since the spec fixes it.
-/
namespace Sys2Proof.Config

/-- FREE VALUE (assumption 12). READ GENERATOR returns repeats remaining, which is 0 to 255 or CONTINUOUS (R29, R42), and
no rule gives the octets that stand for CONTINUOUS. -/
opaque continuousCode : Word16

/-- FREE VALUE (assumption 32). Whether the clip counts of a frame come before a READ ZONE of that frame that returns
the clip counter: the rule allows both orders (R102), and fixes neither. It is applied to `State.choices`, a fresh number at
each such READ. -/
opaque clipsFirst : Nat → Bool

end Sys2Proof.Config
end

