-- ==== Sys2Proof/Machine/State.lean ====
section
/-!
DEFINITION. The state of the KW4216 as plain data: every table, record, counter, queue and parameter that the chapters
give the blocks, the model's own bookkeeping (marked so), and the state after a line reset.
-/
namespace Sys2Proof.Machine

/-! ## Campus Clock (chapter 1) -/

/-- The clock state, in the order R6 lists it. -/
inductive ClockState where
  | unset | locked | holdover
  deriving DecidableEq, Repr

/-- The Campus Clock's record (R5) with its parameters (1.3). -/
structure Clock where
  timeOfDay : Nat
  framePhase : Nat
  day : Day
  weekday : Nat
  state : ClockState
  correction : Int
  slewCounter : Nat
  slewInterval : Nat
  lastAccept : Option Word32
  sets : Nat
  steps : Nat
  slews : Nat
  holdovers : Nat
  stepThreshold : Nat
  slewRate : Nat
  holdoverLimit : Nat
  frameTrim : Int
  deriving DecidableEq, Repr

/-! ## Tones (chapter 2) -/

/-- The kind of a pattern step, coded as R162 codes it. -/
inductive StepKind where
  | toneA | toneB | silence
  deriving DecidableEq, Repr

/-- One step of a pattern: its kind and its duration in units of 10 ms (R24). -/
structure PatStep where
  kind : StepKind
  units : Nat
  deriving DecidableEq, Repr

/-- A pattern that is not empty (R24). -/
structure Pattern where
  toneA : Nat
  toneB : Option Nat
  amplitude : Nat
  inverted : Bool
  repeatCount : Nat
  steps : List PatStep
  deriving DecidableEq, Repr

/-- The draft of PATTERN WRITE (R25); a position not yet filled holds none. -/
structure Draft where
  target : Nat
  toneA : Nat
  toneB : Option Nat
  amplitude : Nat
  inverted : Bool
  repeatCount : Nat
  steps : List (Option PatStep)
  deriving DecidableEq, Repr

/-- What a generator serves (R29). -/
inductive GenUse where
  | bell | chime | drill | alarm
  deriving DecidableEq, Repr

/-- Passes still to play (R29). -/
inductive Repeats where
  | finite (n : Nat)
  | continuous
  deriving DecidableEq, Repr

/-- What asked for a bell (R29). -/
inductive Origin where
  | slot (n : Nat)
  | manual
  deriving DecidableEq, Repr

/-- A generator record (R29). -/
structure Gen where
  running : Bool
  use : GenUse
  held : Bool
  pattern : Nat
  priority : Nat
  zones : ZoneSet
  stepIndex : Nat
  remaining : Nat
  repeats : Repeats
  passRepeats : Repeats
  increment : Nat
  phase : Word16
  page : Option (Fin 8)
  stamp : Option Word32
  origin : Option Origin
  deriving DecidableEq, Repr

/-- A bell request waiting in the bell queue (R35). -/
structure BellReq where
  zones : ZoneSet
  pattern : Nat
  priority : Nat
  origin : Origin
  stamp : Word32
  deriving DecidableEq, Repr

/-- The Generator Arbiter: pattern table, draft, bell queue, late limit, nine counters (R24, R25, R35, R38, R41). -/
structure Arbiter where
  patterns : Vector (Option Pattern) 16
  draft : Option Draft
  queue : List BellReq
  lateLimit : Nat
  started : Nat
  merged : Nat
  queued : Nat
  queueMerged : Nat
  fullDrop : Nat
  lateDiscard : Nat
  emptyDiscard : Nat
  chimesStarted : Nat
  chimesRefused : Nat
  deriving DecidableEq, Repr

/-! ## Schedule (chapter 3) -/

/-- An entry of a schedule slot (R43). -/
structure Entry where
  second : Nat
  days : DaySet
  zones : ZoneSet
  pattern : Nat
  priority : Nat
  holidaySkip : Bool
  catchUp : Bool
  fired : Option Day
  deriving DecidableEq, Repr

/-- A bank of 128 slots, an empty slot holding none (R43). -/
abbrev Bank := Vector (Option Entry) 128

/-- The outcome of a firing: the arbiter's five, or WITHHELD, or NO-PATTERN, in the order of R57. -/
inductive FireOutcome where
  | started | merged | queued | queueMerged | dropped | withheld | noPattern
  deriving DecidableEq, Repr

/-- The last-firing record (R57). -/
structure Firing where
  slot : Nat
  day : Day
  second : Nat
  catchUp : Bool
  outcome : FireOutcome
  deriving DecidableEq, Repr

/-- The Schedule Engine (R43, R44, R51, R61, R63). -/
structure Sched where
  bankA : Bank
  bankB : Bank
  aActive : Bool
  cursor : Nat
  cursorDay : Day
  cursorWeekday : Nat
  commitPending : Bool
  holidays : List Day
  lastFiring : Option Firing
  fired : Nat
  withheld : Nat
  skipped : Nat
  noPattern : Nat
  catchUpWindow : Nat
  deriving DecidableEq, Repr

/-! ## Zones, claims, pages, detectors, mixer, supervision (chapters 4 to 6) -/

/-- A zone's mode (R66), coded as R162 codes it. -/
inductive Mode where
  | day | quiet | night | closed
  deriving DecidableEq, Repr

/-- A zone's amplifier power (R65). -/
inductive Power where
  | on | standby | waking
  deriving DecidableEq, Repr

/-- A zone's test state (R104). -/
inductive TestState where
  | none | pending | testing
  deriving DecidableEq, Repr

/-- A zone's health (R104), in the order that rule lists it. -/
inductive Health where
  | unknown | normal | short | low | high | openLine | fault | noReply
  deriving DecidableEq, Repr

/-- A zone record: the Zone Arbiter's fields (R65), the Mixer's two (R92) and the Line Supervisor's four (R104). The wait
set of R70 is not stored twice: it is computed from the claims (`State.waitSet`). -/
structure Zone where
  mode : Mode
  owner : Option (Fin 13)
  background : Option (Fin 8)
  ga : Nat
  gb : Nat
  depth : Nat
  power : Power
  idleStamp : Word32
  wakeStamp : Option Word32
  filtered : Nat
  unconfirmed : Nat
  duck : Nat
  clip : Nat
  test : TestState
  health : Health
  healthLatch : Bool
  impedance : Option Octet
  deriving DecidableEq, Repr

/-- A claim that stands: priority, wanted set, open stamp, filtered set (R69). -/
structure Claim where
  priority : Nat
  wanted : ZoneSet
  stamp : Word32
  filtered : ZoneSet
  deriving DecidableEq, Repr

/-- A page's state (R74). -/
inductive PageState where
  | free | pending | chiming | live
  deriving DecidableEq, Repr

/-- A page record (R74). Its granted set is computed from the owners (`State.granted`). -/
structure Page where
  state : PageState
  priority : Nat
  wanted : ZoneSet
  chime : Option Nat
  chimeGen : Option (Fin 4)
  chimeSkipped : Bool
  allOrNone : Bool
  silenceClose : Bool
  openStamp : Word32
  tag : Octet
  silenceStamp : Option Word32
  deriving DecidableEq, Repr

/-- A level detector (R85). -/
structure Detector where
  envelope : Nat
  active : Bool
  deriving DecidableEq, Repr

/-- The Zone Arbiter's parameters (4.3) and its stray-ready counter (R90). -/
structure ZoneParams where
  pageMax : Nat
  pageSilence : Nat
  detHigh : Nat
  detLow : Nat
  ampIdle : Nat
  ampWake : Nat
  drillFloor : Nat
  strayReady : Nat
  deriving DecidableEq, Repr

/-- A leg's measurement slot (R105). TESTING is a zone being present. -/
structure MeasSlot where
  zone : Option (Fin 4)
  number : Octet
  departure : Option Word32
  retry : Option Word32
  started : Nat
  completed : Nat
  timedOut : Nat
  aborted : Nat
  refused : Nat
  stray : Nat
  deriving DecidableEq, Repr

/-! ## Room Roster (chapter 7) -/

/-- What the roster knows of a room (R116). A room is expected unless it is ABSENT. -/
inductive RoomState where
  | absent | unpolled | tracking | drifting | stale
  deriving DecidableEq, Repr

/-- A room record; its address is fixed (R116). -/
structure Room where
  state : RoomState
  lastError : Option Int
  missed : Nat
  corrections : Nat
  lastReply : Option Word32
  deriving DecidableEq, Repr

/-- The departure stamp and departure time of an OUTSTANDING poll (R118). -/
structure Departure where
  stamp : Word32
  time : Nat
  deriving DecidableEq, Repr

/-- A leg's poll: QUEUED while it has no departure, OUTSTANDING from then on (R118). -/
structure Poll where
  room : Fin 32
  departed : Option Departure
  voided : Bool
  deriving DecidableEq, Repr

/-- A leg's poll record and its eight counters (R118). -/
structure LegPoll where
  stamp : Word32
  lastPolled : Option (Fin 32)
  poll : Option Poll
  owed : Bool
  departed : Nat
  taken : Nat
  misses : Nat
  late : Nat
  voided : Nat
  refused : Nat
  setsQueued : Nat
  setsRefused : Nat
  deriving DecidableEq, Repr

/-- The roster's parameters (7.2) and the noted clock state (R118). -/
structure RosterParams where
  pollInterval : Nat
  replyTimeout : Nat
  tolerance : Nat
  noted : ClockState
  deriving DecidableEq, Repr

/-! ## Drill Sequencer (chapter 8) -/

/-- The drill state, in the order of R135. -/
inductive DrillState where
  | idle | prealert | evacuate | hold | allclear | alarm | alarmSilenced
  deriving DecidableEq, Repr

/-- The cause of a change of drill state, in the order of R139. -/
inductive Cause where
  | start | key | prealertTime | autoHold | toneLimit | holdCommand | endCommand | toneEnd | panelOn | panelOff
  | silenceKey | silenceCommand
  deriving DecidableEq, Repr

/-- The cause of HOLD that a drill record keeps, in the order of R147. -/
inductive HoldCause where
  | holdCommand | key | autoHold | toneLimit
  deriving DecidableEq, Repr

/-- The end reason of a drill record (R147). -/
inductive EndReason where
  | ended | alarmAbort
  deriving DecidableEq, Repr

/-- One entry of the muster list (R135). -/
structure MusterEntry where
  room : Nat
  cleared : Option Nat
  deriving DecidableEq, Repr

/-- The drill record (R147). It is running while it has no end reason. -/
structure DrillRecord where
  byKey : Bool
  tag : Option Octet
  startTime : Option (Day × Nat)
  prealert : Nat
  target : Nat
  staff : ZoneSet
  autoHold : Bool
  evacStart : Option Word32
  holdReached : Option Nat
  holdCause : Option HoldCause
  endReason : Option EndReason
  musterCount : Nat
  clearedCount : Nat
  lastClear : Option Nat
  allCleared : Option Bool
  bellsWithheld : Nat
  faulted : Option ZoneSet
  deriving DecidableEq, Repr

/-- The Drill Sequencer (R135) with its parameters (8.2). -/
structure Drill where
  state : DrillState
  entryStamp : Word32
  cause : Option Cause
  elapsed : Option Nat
  muster : List MusterEntry
  record : Option DrillRecord
  owed : BitVec 4
  drillsStarted : Nat
  alarmOnsets : Nat
  clearsRepeated : Nat
  clearsStray : Nat
  toneLimit : Nat
  prealertPattern : Nat
  evacPattern : Nat
  allclearPattern : Nat
  alarmPattern : Nat
  keyPrealert : Nat
  keyTarget : Nat
  keyStaff : ZoneSet
  keyAutoHold : Bool
  debounce : Nat
  deriving DecidableEq, Repr

/-- A contact input's record (R132); a level is true when ACTIVE. -/
structure Input where
  raw : Bool
  changeStamp : Word32
  level : Bool
  latch : Bool
  rise : Bool
  fall : Bool
  deriving DecidableEq, Repr

/-! ## Ports, queues, dispatcher, management (chapters 9 and 10) -/

/-- Who made a queued cell (R168). -/
inductive Maker where
  | roster | zoneArbiter | supervisor | drill | management | dispatcher
  deriving DecidableEq, Repr

/-- A queued cell with its class and its maker (R168). -/
structure QCell where
  cell : Cell
  urgent : Bool
  maker : Maker
  deriving DecidableEq, Repr

/-- A receiving port's cell assembler: EMPTY while it holds no piece; the capture record is of the first piece (R159). -/
structure Assembler where
  pieces : List Fragment
  capture : Capture
  deriving DecidableEq, Repr

/-- A sending port's transmitter while it is SENDING: the cell and the pieces sent (R160). -/
structure Sending where
  cell : Cell
  sent : Nat
  deriving DecidableEq, Repr

/-- A port: sync state (UP or SYNC is true), its two counts, assembler, transmitter, queue, link counters and queue
counters (R156, R158 to R160, R168, R176). -/
structure Port where
  up : Bool
  bad : Nat
  good : Nat
  assembler : Assembler
  tx : Option Sending
  queue : List QCell
  badFrames : Nat
  syncLosses : Nat
  received : Nat
  assemblyErrors : Nat
  accepted : Nat
  gathered : Nat
  departed : Nat
  dropped : Nat
  evicted : Nat
  downRefused : Nat
  deriving DecidableEq, Repr

/-- A dispatch table entry; true is FORWARD, URGENT and YES (R165). -/
structure DispatchEntry where
  down : Bool
  up : Bool
  urgent : Bool
  withhold : Bool
  deriving DecidableEq, Repr

/-- The dispatcher's counters (R176). -/
structure DispatchCounters where
  misaddressed : Nat
  unknown : Nat
  tableDropped : Nat
  withheld : Nat
  deriving DecidableEq, Repr

/-- The Management Engine (R177). Notice kind n is bit n of the enables. -/
structure Mgmt where
  enables : Word16
  deferred : Option Octet
  executed : Nat
  refused : Nat
  lostResponses : Nat
  lostNotices : Nat
  deriving DecidableEq, Repr

/-- A frame that a port sends: control word, slot samples (none on the trunk), cell fragment (R155). -/
structure OutFrame where
  control : Word16
  samples : List Int
  fragment : Fragment
  deriving DecidableEq, Repr

/-! ## The contest of a frame (R73) -/

/-- What the event in progress has brought to the contest: the zones that changed hands; the zones that each claimant
joined, and those at which a better contender made way for it; for each PENDING page the zones that each claimant joined
since the page last had none of the event's own claims in its way; the pages of which a claim that held them back was
removed; and of those the ones that have not been found without the event's own claims in their way since. The MODEL's own
(assumptions 36 and 37). -/
structure Arrivals where
  taken : ZoneSet
  joined : Vector ZoneSet 13
  cleared : Vector ZoneSet 13
  fresh : Vector (Vector ZoneSet 13) 8
  eased : PageSet
  held : PageSet
  deriving DecidableEq, Repr

/-- An event that has brought nothing yet. -/
def Arrivals.none : Arrivals :=
  { taken := 0, joined := Vector.replicate 13 0, cleared := Vector.replicate 13 0
    fresh := Vector.replicate 8 (Vector.replicate 13 0), eased := 0, held := 0 }

/-- What the Zone Arbiter remembers of a frame so that two events of one frame end alike in either order (R73). The MODEL's
own. Of the events of the frame that are over: the zones that changed hands, and the zones at which each claimant gained by
them, because it came to contend or a better contender made way (assumption 36); for each PENDING page and each claimant the
zones at which the claimant does not hold the page back in this frame (assumption 37), and the pages of which a claim that
held them back was removed (assumption 36). And what the event in progress has brought, nothing between events. -/
structure Contest where
  taken : ZoneSet
  gained : Vector ZoneSet 13
  excused : Vector (Vector ZoneSet 13) 8
  eased : PageSet
  now : Arrivals
  deriving DecidableEq, Repr

/-- The contest of a frame in which nothing has happened yet. -/
def Contest.none : Contest :=
  { taken := 0, gained := Vector.replicate 13 0, excused := Vector.replicate 8 (Vector.replicate 13 0), eased := 0
    now := .none }

/-! ## The whole state -/

/-- The state of the switch. `sending` and `sent` are the frames on the links: those of the present frame and, complete,
those of the frame before. `contest`, `clipDue`, `choices`, `due` and `pending` are the MODEL's own fields: the contest of the
present frame (assumptions 36 and 37), the zones whose saturation in it is not yet counted and the number of orders chosen
so far (assumption 32), the events of the frame not yet taken (assumption 2), and the queue of commands that wait. -/
structure State where
  tickPhase : Nat
  elapsed : Word32
  clock : Clock
  gens : Vector Gen 5
  arb : Arbiter
  sched : Sched
  zones : Vector Zone 16
  claims : Vector (Option Claim) 13
  pages : Vector Page 8
  detectors : Vector Detector 8
  za : ZoneParams
  duckRate : Nat
  slotSamples : Vector Int 16
  meas : Vector MeasSlot 4
  testTimeout : Nat
  rooms : Vector Room 128
  polls : Vector LegPoll 4
  roster : RosterParams
  drill : Drill
  inputs : Vector Input 4
  ports : Vector Port 5
  table : Vector DispatchEntry 192
  disp : DispatchCounters
  mgmt : Mgmt
  sending : Vector OutFrame 5
  sent : Vector OutFrame 5
  contest : Contest
  clipDue : ZoneSet
  choices : Nat
  due : List Instr
  pending : List Instr
  deriving DecidableEq, Repr

/-- The reasons a step can stop with a fault: none. No rule of the spec stops the switch, so no meaning raises a fault,
and the type has no constructor. -/
inductive Fault where
  deriving DecidableEq, Repr

/-- The reasons a step can be refused. -/
inductive Refusal where
  /-- Raised by `exec` for a command that has no meaning yet, by its mnemonic. Safe: the run stops there. No arm of
  `exec` raises it in this model. -/
  | notModelled (mnemonic : String)
  deriving DecidableEq, Repr

/-! ## The state after a line reset -/

/-- A capture record of no cell, held by an EMPTY assembler. -/
def Capture.none : Capture := { elapsed := 0, timeOfDay := 0, day := 0 }

/-- The clock after a line reset (R5 and the defaults of 1.3). -/
def Clock.reset : Clock :=
  { timeOfDay := 0, framePhase := 0, day := 0, weekday := 0, state := .unset, correction := 0, slewCounter := 0,
    slewInterval := 2000, lastAccept := none, sets := 0, steps := 0, slews := 0, holdovers := 0, stepThreshold := 2000,
    slewRate := 30, holdoverLimit := 300, frameTrim := 0 }

/-- A factory pattern: amplitude 16000, polarity NORMAL (R24). -/
def Pattern.factory (toneA : Nat) (toneB : Option Nat) (repeatCount : Nat) (steps : List PatStep) : Pattern :=
  { toneA, toneB, amplitude := 16000, inverted := false, repeatCount, steps }

/-- The pattern table after a line reset: P0 to P11 empty, the factory patterns in P12 to P15 (R24). -/
def Arbiter.resetPatterns : Vector (Option Pattern) 16 :=
  ((((Vector.replicate 16 none).set 12 (some (Pattern.factory 660 none 0 [⟨.toneA, 30⟩, ⟨.silence, 70⟩]))).set 13
    (some (Pattern.factory 1000 none 0 [⟨.toneA, 75⟩, ⟨.silence, 25⟩, ⟨.toneA, 75⟩, ⟨.silence, 125⟩]))).set 14
    (some (Pattern.factory 880 none 1 [⟨.toneA, 200⟩]))).set 15
    (some (Pattern.factory 950 (some 700) 0 [⟨.toneA, 40⟩, ⟨.toneB, 40⟩]))

/-- A generator after a line reset (R29). -/
def Gen.reset (use : GenUse) : Gen :=
  { running := false, use, held := false, pattern := 0, priority := 1, zones := 0, stepIndex := 0, remaining := 0,
    repeats := .finite 0, passRepeats := .finite 1, increment := 0, phase := 0, page := none, stamp := none,
    origin := none }

/-- The Generator Arbiter after a line reset (R24, R25, R35, R38, R41). -/
def Arbiter.reset : Arbiter :=
  { patterns := Arbiter.resetPatterns, draft := none, queue := [], lateLimit := 5000, started := 0, merged := 0,
    queued := 0, queueMerged := 0, fullDrop := 0, lateDiscard := 0, emptyDiscard := 0, chimesStarted := 0,
    chimesRefused := 0 }

/-- The Schedule Engine after a line reset (R43, R44). -/
def Sched.reset : Sched :=
  { bankA := Vector.replicate 128 none, bankB := Vector.replicate 128 none, aActive := true, cursor := 0,
    cursorDay := 0, cursorWeekday := 0, commitPending := false, holidays := [], lastFiring := none, fired := 0,
    withheld := 0, skipped := 0, noPattern := 0, catchUpWindow := 60 }

/-- A zone after a line reset (R65, R92, R104). -/
def Zone.reset : Zone :=
  { mode := .day, owner := none, background := none, ga := 128, gb := 0, depth := 32, power := .on, idleStamp := 0,
    wakeStamp := none, filtered := 0, unconfirmed := 0, duck := 128, clip := 0, test := .none, health := .unknown,
    healthLatch := false, impedance := none }

/-- A page after a line reset (R74). -/
def Page.reset : Page :=
  { state := .free, priority := 1, wanted := 0, chime := none, chimeGen := none, chimeSkipped := false,
    allOrNone := false, silenceClose := false, openStamp := 0, tag := 0, silenceStamp := none }

/-- The Zone Arbiter's parameters at their defaults (4.3) and its counter at 0 (R90). -/
def ZoneParams.reset : ZoneParams :=
  { pageMax := 600, pageSilence := 8, detHigh := 2000, detLow := 1000, ampIdle := 60, ampWake := 1500, drillFloor := 9,
    strayReady := 0 }

/-- A measurement slot after a line reset (R105). -/
def MeasSlot.reset : MeasSlot :=
  { zone := none, number := 0, departure := none, retry := none, started := 0, completed := 0, timedOut := 0,
    aborted := 0, refused := 0, stray := 0 }

/-- The record of an ABSENT room (R116). -/
def Room.absent : Room := { state := .absent, lastError := none, missed := 0, corrections := 0, lastReply := none }

/-- A leg's poll record and counters after a line reset (R118). -/
def LegPoll.reset : LegPoll :=
  { stamp := 0, lastPolled := none, poll := none, owed := false, departed := 0, taken := 0, misses := 0, late := 0,
    voided := 0, refused := 0, setsQueued := 0, setsRefused := 0 }

/-- The roster's parameters at their defaults (7.2), the noted clock state UNSET (R118). -/
def RosterParams.reset : RosterParams := { pollInterval := 500, replyTimeout := 200, tolerance := 250, noted := .unset }

/-- The Drill Sequencer after a line reset (R135) with the defaults of 8.2. -/
def Drill.reset : Drill :=
  { state := .idle, entryStamp := 0, cause := none, elapsed := none, muster := [], record := none, owed := 0,
    drillsStarted := 0, alarmOnsets := 0, clearsRepeated := 0, clearsStray := 0, toneLimit := 600,
    prealertPattern := 12, evacPattern := 13, allclearPattern := 14, alarmPattern := 15, keyPrealert := 0,
    keyTarget := 300, keyStaff := 0, keyAutoHold := true, debounce := 20 }

/-- An input after a line reset, its raw level as sampled (R132). -/
def Input.reset (raw : Bool) : Input :=
  { raw, changeStamp := 0, level := false, latch := false, rise := true, fall := true }

/-- A port after a line reset: out of sync, empty, every counter 0 (R156, R158 to R160, R168, R176). -/
def Port.reset : Port :=
  { up := false, bad := 0, good := 0, assembler := { pieces := [], capture := Capture.none }, tx := none, queue := [],
    badFrames := 0, syncLosses := 0, received := 0, assemblyErrors := 0, accepted := 0, gathered := 0, departed := 0,
    dropped := 0, evicted := 0, downRefused := 0 }

/-- A dispatch table entry after a line reset (R165). -/
def DispatchEntry.reset : DispatchEntry := { down := true, up := true, urgent := false, withhold := true }

/-- The notice kinds, bits 1 to 14 of the enables (R183). -/
def allNotices : Word16 := 0x7FFE

/-- The Management Engine after a line reset (R177). -/
def Mgmt.reset : Mgmt :=
  { enables := allNotices, deferred := none, executed := 0, refused := 0, lostResponses := 0, lostNotices := 0 }

/-- No frame sent yet. DESIGN CHOICE (assumption 5): zeros stand on a link before the first frame. -/
def OutFrame.none : OutFrame := { control := 0, samples := [], fragment := Vector.replicate 4 0 }

/-- The machine right after a line reset, the raw levels of the contacts sampled as `contacts` (R132, R185). -/
def State.resetWith (contacts : InputSet) : State :=
  { tickPhase := 0, elapsed := 0, clock := Clock.reset,
    gens := (Vector.replicate 5 (Gen.reset .bell)).set 4 (Gen.reset .drill), arb := Arbiter.reset, sched := Sched.reset,
    zones := Vector.replicate 16 Zone.reset, claims := Vector.replicate 13 none, pages := Vector.replicate 8 Page.reset,
    detectors := Vector.replicate 8 { envelope := 0, active := false }, za := ZoneParams.reset, duckRate := 4,
    slotSamples := Vector.replicate 16 0, meas := Vector.replicate 4 MeasSlot.reset, testTimeout := 500,
    rooms := Vector.replicate 128 Room.absent, polls := Vector.replicate 4 LegPoll.reset, roster := RosterParams.reset,
    drill := Drill.reset, inputs := Vector.ofFn fun i => Input.reset (contacts.getLsbD i.val),
    ports := Vector.replicate 5 Port.reset, table := Vector.replicate 192 DispatchEntry.reset,
    disp := { misaddressed := 0, unknown := 0, tableDropped := 0, withheld := 0 }, mgmt := Mgmt.reset,
    sending := Vector.replicate 5 OutFrame.none, sent := Vector.replicate 5 OutFrame.none,
    contest := Contest.none, clipDue := 0, choices := 0, due := [], pending := [] }

/-- The machine right after reset. DESIGN CHOICE (assumption 4): the spec gives the raw levels 'as sampled'; here every
contact is open. The command LINE_RESET samples them. -/
def State.reset : State := State.resetWith 0

end Sys2Proof.Machine
end

