-- ==== Sys2Proof/Machine/Ops.lean ====
section
/-!
DEFINITION. The plain operations that every family of commands uses: saturating counters, time on the elapsed count, sets,
the places of zones, legs and ports, one update for each part of the state, and how a command, an event or a received cell
is taken in its frame.
-/
namespace Sys2Proof.Machine

/-- What a step answers. -/
abbrev Outcome := Host.Outcome State Fault Refusal

/-! ## Numbers -/

/-- A counter is 16 bits wide and saturates at 65535 (00_scope, Counters). -/
def bump (n : Nat) : Nat := min (n + 1) 65535

/-- A quantity held to its range (R179). -/
def clampNat (lo hi n : Nat) : Nat := max lo (min hi n)

/-- A signed quantity held to its range (R180). -/
def clampInt (lo hi v : Int) : Int := max lo (min hi v)

/-- Time elapsed since a stamp: the difference modulo 2^32 (R2). -/
def since (now stamp : Word32) : Nat := (now - stamp).toNat

/-- A duration of `length` ms that began at `stamp` has expired (R2). -/
def expired (now stamp : Word32) (length : Nat) : Bool := decide (length ≤ since now stamp)

/-- An octet from a number below 256. -/
def oct (n : Nat) : Octet := BitVec.ofNat 8 n

/-! ## Sets -/

/-- The set of the members that satisfy a test. -/
def setOf {n : Nat} (p : Fin n → Bool) : BitVec n :=
  (List.finRange n).foldl (fun acc i => if p i then acc ||| BitVec.ofNat n (2 ^ i.val) else acc) 0

/-- The members of a set in ascending order. -/
def members {n : Nat} (s : BitVec n) : List (Fin n) := (List.finRange n).filter fun i => s.getLsbD i.val

/-- The number of members of a set. -/
def card {n : Nat} (s : BitVec n) : Nat := (members s).length

/-- A set without the members of another. -/
def without {n : Nat} (s t : BitVec n) : BitVec n := s &&& ~~~t

/-- The three set operations: WRITE 0 replaces, SET 1 adds, CLEAR 2 removes; a code above 2 is unknown (R162). -/
def setOp {n : Nat} (op : Nat) (old new : BitVec n) : Option (BitVec n) :=
  match op with
  | 0 => some new
  | 1 => some (old ||| new)
  | 2 => some (without old new)
  | _ => none

/-! ## Places: zone Zn lies on leg n div 4 in slot n mod 4 (00_scope, Naming) -/

/-- The leg of a zone. -/
def legOfZone (z : Fin 16) : Fin 4 := ⟨z.val / 4, by omega⟩

/-- The slot of a zone on its leg. -/
def slotOfZone (z : Fin 16) : Fin 4 := ⟨z.val % 4, by omega⟩

/-- The zone in a slot of a leg. -/
def zoneOf (leg slot : Fin 4) : Fin 16 := ⟨4 * leg.val + slot.val, by omega⟩

/-- The number of a room of a leg: 32 × leg + room (R116). -/
def roomIndex (leg : Fin 4) (room : Fin 32) : Fin 128 := ⟨32 * leg.val + room.val, by omega⟩

/-- The port of a leg. -/
def legPort (leg : Fin 4) : Fin 5 := ⟨leg.val, by omega⟩

/-- The trunk's port: its upstream queue has number 4 (R173). -/
def trunkPort : Fin 5 := 4

/-- The leg of a port, none for the trunk. -/
def portLeg (p : Fin 5) : Option (Fin 4) := if h : p.val < 4 then some ⟨p.val, h⟩ else none

/-- EG is generator 4 (READ GENERATOR numbers it so, R42). -/
def egGen : Fin 5 := 4

/-- Tone generator TGn among the five generators. -/
def tgGen (g : Fin 4) : Fin 5 := ⟨g.val, by omega⟩

/-- The claimant number of page PGn (R69). -/
def pageClaimant (p : Fin 8) : Fin 13 := ⟨p.val, by omega⟩

/-- The claimant number of bell generator TGn (R69). -/
def tgClaimant (g : Fin 4) : Fin 13 := ⟨8 + g.val, by omega⟩

/-- The claimant number of EG (R69). -/
def egClaimant : Fin 13 := 12

/-! ## One update for each part of the state -/

def State.modClock (s : State) (f : Clock → Clock) : State := { s with clock := f s.clock }
def State.modGen (s : State) (g : Fin 5) (f : Gen → Gen) : State := { s with gens := s.gens.set g (f s.gens[g]) }
def State.modArb (s : State) (f : Arbiter → Arbiter) : State := { s with arb := f s.arb }
def State.modSched (s : State) (f : Sched → Sched) : State := { s with sched := f s.sched }
def State.modZone (s : State) (z : Fin 16) (f : Zone → Zone) : State := { s with zones := s.zones.set z (f s.zones[z]) }
def State.setClaim (s : State) (c : Fin 13) (v : Option Claim) : State := { s with claims := s.claims.set c v }
def State.modPage (s : State) (p : Fin 8) (f : Page → Page) : State := { s with pages := s.pages.set p (f s.pages[p]) }
def State.modDetector (s : State) (p : Fin 8) (f : Detector → Detector) : State :=
  { s with detectors := s.detectors.set p (f s.detectors[p]) }
def State.modZa (s : State) (f : ZoneParams → ZoneParams) : State := { s with za := f s.za }
def State.setDuckRate (s : State) (n : Nat) : State := { s with duckRate := n }
def State.setSlotSamples (s : State) (v : Vector Int 16) : State := { s with slotSamples := v }
def State.modMeas (s : State) (l : Fin 4) (f : MeasSlot → MeasSlot) : State := { s with meas := s.meas.set l (f s.meas[l]) }
def State.setTestTimeout (s : State) (n : Nat) : State := { s with testTimeout := n }
def State.modRoom (s : State) (r : Fin 128) (f : Room → Room) : State := { s with rooms := s.rooms.set r (f s.rooms[r]) }
def State.modPoll (s : State) (l : Fin 4) (f : LegPoll → LegPoll) : State := { s with polls := s.polls.set l (f s.polls[l]) }
def State.modRoster (s : State) (f : RosterParams → RosterParams) : State := { s with roster := f s.roster }
def State.modDrill (s : State) (f : Drill → Drill) : State := { s with drill := f s.drill }
def State.modInput (s : State) (i : Fin 4) (f : Input → Input) : State := { s with inputs := s.inputs.set i (f s.inputs[i]) }
def State.modPort (s : State) (p : Fin 5) (f : Port → Port) : State := { s with ports := s.ports.set p (f s.ports[p]) }
def State.modTable (s : State) (f : Vector DispatchEntry 192 → Vector DispatchEntry 192) : State := { s with table := f s.table }
def State.modDisp (s : State) (f : DispatchCounters → DispatchCounters) : State := { s with disp := f s.disp }
def State.modMgmt (s : State) (f : Mgmt → Mgmt) : State := { s with mgmt := f s.mgmt }
def State.modSending (s : State) (p : Fin 5) (f : OutFrame → OutFrame) : State :=
  { s with sending := s.sending.set p (f s.sending[p]) }
def State.setDue (s : State) (l : List Instr) : State := { s with due := l }

def State.setZones (s : State) (v : Vector Zone 16) : State := { s with zones := v }
def State.modContest (s : State) (f : Contest → Contest) : State := { s with contest := f s.contest }
def State.setClipDue (s : State) (x : ZoneSet) : State := { s with clipDue := x }
def State.setChoices (s : State) (n : Nat) : State := { s with choices := n }

/-! ## The millisecond tick (R1)

Its counts come before every other event of a tick frame: a stamp taken in the frame of a tick holds the elapsed count as it
stands after that tick's increase (R2). The move of the duck factors is left to the tick's own row, since R102 lets it come
before or after the other events of the frame. -/

/-- The events that the switch looks at in each millisecond tick, in the order of the opcode table. -/
def tickEvents : List Instr :=
  [.holdoverExpiry] ++ (List.finRange 5).map .generatorStepEnd ++ (List.finRange 8).map .pageMaxTime
    ++ (List.finRange 8).map .pageSilence ++ [.ampRest, .ampWakeLimit] ++ (List.finRange 4).map .lineTestStart
    ++ (List.finRange 4).map .testTimeout ++ (List.finRange 4).map .pollPoint ++ [.replyTimeout, .clockStateBroadcast]
    ++ (List.finRange 4).map .drillStateOwedOffer ++ (List.finRange 4).map .inputEdge
    ++ [.prealertExpiry, .evacuationToneLimit]

/-- A RUNNING generator's step remaining decreases by 1 (R32). EG on an empty pattern has none left, and no tick changes
its record (R34). -/
def Gen.countDown (g : Gen) : Gen := if g.running then { g with remaining := g.remaining - 1 } else g

/-- The duck target: the duck depth under an owner, 128 without one (R98). -/
def Zone.duckTarget (z : Zone) : Nat := if z.owner.isSome then z.depth else 128

/-- D moves toward its target by the duck rate, or by the distance if that is smaller (R98). -/
def Zone.ramp (rate : Nat) (z : Zone) : Zone :=
  let t := z.duckTarget
  { z with duck := if z.duck ≤ t then min t (z.duck + rate) else max t (z.duck - rate) }

/-- The drill elapsed time increases by 1 in EVACUATE and HOLD, stopping at 2,147,483,647 (R135). -/
def Drill.tick (d : Drill) : Drill :=
  if d.state = .evacuate ∨ d.state = .hold then { d with elapsed := d.elapsed.map fun n => min (n + 1) 2147483647 } else d

/-- The counts of a millisecond tick: the tick phase becomes 0 and the elapsed count increases by 1 (R1), the drill elapsed
time, which is the time since a stamp, follows it (R135), the steps of RUNNING generators count down (R32; a step that begins
in the frame is not counted in it, assumption 30), and the events of the tick fall due. -/
def countTick (s : State) : State :=
  { s with
    tickPhase := 0
    elapsed := s.elapsed + 1
    gens := Vector.ofFn fun g => s.gens[g].countDown
    drill := s.drill.tick
    due := s.due ++ tickEvents }

/-- Every duck factor moves (R98). -/
def rampZones (s : State) : State := s.setZones (Vector.ofFn fun z => s.zones[z].ramp s.duckRate)

/-! ## The clip counts of a frame (R97) -/

/-- The clip counts of the present frame that are still to be taken: each zone saturated in it counts one (R97). -/
def countClips (s : State) : State :=
  (s.setZones (Vector.ofFn fun z =>
    if s.clipDue.getLsbD z.val then { s.zones[z] with clip := bump s.zones[z].clip } else s.zones[z])).setClipDue 0

/-! ## Taking commands, events and cells (assumption 2) -/

/-- The present frame is a millisecond tick whose counts are still to be taken: the tick is due and the tick phase stands at
7 (assumption 23). -/
def State.tickWaits (s : State) : Bool := s.due.contains .millisecondTick && s.tickPhase == 7

/-- The counts of an outstanding millisecond tick are taken before anything else of the frame (R2). -/
def State.settle (s : State) : State := if s.tickWaits then countTick s else s

/-- The command leaves the events of the present frame that are still to be taken. -/
def State.take (s : State) (c : Instr) : State := s.setDue (s.due.erase c)

/-- An event of a frame or of a tick: it is taken once in the frame in which it falls due. In a frame in which it is not
due it does not fall, and nothing happens. -/
def State.onEvent (s : State) (c : Instr) (act : State → State) : State :=
  let t := s.settle
  if t.due.contains c then act (t.take c) else t

/-- A cell received from a leg, or one from the trunk that is no command: taken at its reception. -/
def State.onCell (s : State) (c : Instr) (act : State → State) : State := act (s.settle.take c)

/-- A command of the head-end: the commands-executed counter increases at the start of its event (R178). -/
def State.onCommand (s : State) (c : Instr) (act : State → State) : State :=
  act ((s.settle.take c).modMgmt fun m => { m with executed := bump m.executed })

/-- The state that an outcome leaves: the next one, or the same where the step stopped. -/
def State.after (s : State) : Outcome → State
  | .next t => t
  | .fault _ => s
  | .refused _ => s

end Sys2Proof.Machine
end

