-- ==== Sys2Proof/Machine/Operands.lean ====
section
/-!
DEFINITION. The data fields of responses, notices and READ items: widths and order by R179, enumerations coded in the order
in which their rules list them, absent fields behind a presence octet of 0 (R179, R183; assumptions 9 to 11).
-/
namespace Sys2Proof.Machine

/-! ## Widths (R179) -/

/-- One octet. -/
def u8 (n : Nat) : List Octet := [oct n]

/-- Two octets, most significant first. -/
def u16 (n : Nat) : List Octet := [oct (n / 256), oct n]

/-- Four octets, most significant first. -/
def u32 (n : Nat) : List Octet := [oct (n / 16777216), oct (n / 65536), oct (n / 256), oct n]

/-- A signed value in four octets. -/
def i32 (v : Int) : List Octet := u32 (BitVec.ofInt 32 v).toNat

/-- A flag in one octet. -/
def flag (b : Bool) : List Octet := u8 b.toNat

/-- A field that may be absent: a presence octet, and zeros in place of an absent field of the given width. -/
def optional {α : Type} (width : Nat) (enc : α → List Octet) : Option α → List Octet
  | some a => 1 :: enc a
  | none => 0 :: List.replicate width 0

/-- A millisecond time since a stamp that may be absent. -/
def sinceField (now : Word32) (stamp : Option Word32) : List Octet := optional 4 (fun st => u32 (since now st)) stamp

/-! ## Enumerations -/

/-- Result codes (R179). -/
inductive Result where
  | done | clamped | queued | busy | state | field | full | order | conflict | noPattern | inUse | alarm | unknown
  deriving DecidableEq, Repr

def Result.code : Result → Nat
  | .done => 0 | .clamped => 1 | .queued => 2 | .busy => 3 | .state => 4 | .field => 5 | .full => 6 | .order => 7
  | .conflict => 8 | .noPattern => 9 | .inUse => 10 | .alarm => 11 | .unknown => 12

/-- Every result other than DONE, CLAMPED and QUEUED counts as a refusal (R178). -/
def Result.refuses : Result → Bool
  | .done | .clamped | .queued => false
  | _ => true

/-- DONE, or CLAMPED where a clamp acted (R179). -/
def Result.ofClamp (clamped : Bool) : Result := if clamped then .clamped else .done

/-- Notice kinds (R183). -/
inductive NoticeKind where
  | clockState | clockStep | scheduleSwap | bellDrop | pageEnd | zoneHealth | ampWake | roomStale | roomBack | drillState
  | input | legState | trunkState | queueLoss
  deriving DecidableEq, Repr

def NoticeKind.code : NoticeKind → Nat
  | .clockState => 1 | .clockStep => 2 | .scheduleSwap => 3 | .bellDrop => 4 | .pageEnd => 5 | .zoneHealth => 6
  | .ampWake => 7 | .roomStale => 8 | .roomBack => 9 | .drillState => 10 | .input => 11 | .legState => 12
  | .trunkState => 13 | .queueLoss => 14

def ClockState.code : ClockState → Nat
  | .unset => 0 | .locked => 1 | .holdover => 2

def StepKind.code : StepKind → Nat
  | .toneA => 0 | .toneB => 1 | .silence => 2

/-- The four uses in one list, in the order of the words of R29: BELL, CHIME, DRILL, ALARM (DESIGN CHOICE, assumption 11). -/
def GenUse.code : GenUse → Nat
  | .bell => 0 | .chime => 1 | .drill => 2 | .alarm => 3

def Origin.code : Origin → Nat
  | .slot n => n
  | .manual => 128

def FireOutcome.code : FireOutcome → Nat
  | .started => 0 | .merged => 1 | .queued => 2 | .queueMerged => 3 | .dropped => 4 | .withheld => 5 | .noPattern => 6

def Mode.code : Mode → Nat
  | .day => 0 | .quiet => 1 | .night => 2 | .closed => 3

/-- The mode that a mode code names (R162, R67). -/
def Mode.ofCode : Nat → Option Mode
  | 0 => some .day
  | 1 => some .quiet
  | 2 => some .night
  | 3 => some .closed
  | _ => none

def Power.code : Power → Nat
  | .on => 0 | .standby => 1 | .waking => 2

def TestState.code : TestState → Nat
  | .none => 0 | .pending => 1 | .testing => 2

def Health.code : Health → Nat
  | .unknown => 0 | .normal => 1 | .short => 2 | .low => 3 | .high => 4 | .openLine => 5 | .fault => 6 | .noReply => 7

/-- The health that a class code of LINE RESULT reports; a code above 5 is unknown (R109, R162). -/
def Health.ofClass : Nat → Option Health
  | 0 => some .short
  | 1 => some .low
  | 2 => some .normal
  | 3 => some .high
  | 4 => some .openLine
  | 5 => some .fault
  | _ => none

def PageState.code : PageState → Nat
  | .free => 0 | .pending => 1 | .chiming => 2 | .live => 3

def RoomState.code : RoomState → Nat
  | .absent => 0 | .unpolled => 1 | .tracking => 2 | .drifting => 3 | .stale => 4

def DrillState.code : DrillState → Nat
  | .idle => 0 | .prealert => 1 | .evacuate => 2 | .hold => 3 | .allclear => 4 | .alarm => 5 | .alarmSilenced => 6

def Cause.code : Cause → Nat
  | .start => 0 | .key => 1 | .prealertTime => 2 | .autoHold => 3 | .toneLimit => 4 | .holdCommand => 5
  | .endCommand => 6 | .toneEnd => 7 | .panelOn => 8 | .panelOff => 9 | .silenceKey => 10 | .silenceCommand => 11

def HoldCause.code : HoldCause → Nat
  | .holdCommand => 0 | .key => 1 | .autoHold => 2 | .toneLimit => 3

def EndReason.code : EndReason → Nat
  | .ended => 0 | .alarmAbort => 1

/-- ACTIVE 0, INACTIVE 1: the order of R85 and R132. -/
def levelCode (active : Bool) : Nat := if active then 0 else 1

/-- The octets of repeats remaining; CONTINUOUS has no octets in the spec (assumption 12). -/
def Repeats.field : Repeats → List Octet
  | .finite n => u16 n
  | .continuous => u16 Config.continuousCode.toNat

end Sys2Proof.Machine
end

