-- ==== Sys2Proof/Machine/Queue.lean ====
section
/-!
DEFINITION. The five queues and their one discipline (9.6), the cells the switch makes, notices and responses (10.2, 10.5).
-/
namespace Sys2Proof.Machine

/-! ## One queue (R168 to R170) -/

/-- The capacity of a queue: 16 cells for a leg, 32 upstream (R168). -/
def capacity (p : Fin 5) : Nat := if p = trunkPort then 32 else 16

/-- The kinds of the cells that the queues treat in their own way (R161). -/
def kindResponse : Octet := 0x20
def kindNotice : Octet := 0x21
def kindClockPoll : Octet := 0x28
def kindClockSet : Octet := 0x29
def kindDrillState : Octet := 0x2C
def kindAmpWake : Octet := 0x30
def kindAmpRest : Octet := 0x31
def kindLineTest : Octet := 0x33

/-- An arrival matches a queued cell: a CLOCK SET to the same destination, or a NOTICE of the same notice kind and subject.
No other kind is gathered (R169). -/
def gathers (arrival queued : Cell) : Bool :=
  arrival.kind == queued.kind &&
    ((arrival.kind == kindClockSet && arrival.dst == queued.dst) ||
      (arrival.kind == kindNotice && arrival.octet 4 == queued.octet 4 && arrival.octet 5 == queued.octet 5))

/-- The queue with the arrival gathered into its match, which keeps its position, its age and its tag (R169). -/
def gatherInto (c : Cell) : List QCell → Option (List QCell)
  | [] => none
  | x :: xs =>
    if gathers c x.cell then some ({ x with cell := { x.cell with payload := c.payload } } :: xs)
    else (gatherInto c xs).map (x :: ·)

/-- The youngest ordinary cell, the one accepted last, and the queue without it (R169). -/
def takeYoungestOrdinary : List QCell → Option (QCell × List QCell)
  | [] => none
  | x :: xs =>
    match takeYoungestOrdinary xs with
    | some (y, rest) => some (y, x :: rest)
    | none => if x.urgent then none else some (x, xs)

/-- The oldest urgent cell and the queue without it. -/
def takeOldestUrgent : List QCell → Option (QCell × List QCell)
  | [] => none
  | x :: xs => if x.urgent then some (x, xs) else (takeOldestUrgent xs).map fun r => (r.1, x :: r.2)

/-- The cell that departs next: the oldest urgent cell, or the oldest ordinary one when no urgent cell waits (R170). -/
def serve : List QCell → Option (QCell × List QCell)
  | [] => none
  | x :: xs => some ((takeOldestUrgent (x :: xs)).getD (x, xs))

/-- How a queue meets an offer (R169). -/
inductive Met where
  | downRefused
  | gathered
  | appended
  | evicted (lost : QCell)
  | dropped
  deriving DecidableEq, Repr

/-- A gathered arrival counts as accepted for its maker (R169). -/
def Met.accepted : Met → Bool
  | .gathered | .appended | .evicted _ => true
  | .downRefused | .dropped => false

/-- A cell offered to the queue of a port: the first case of R169 that applies decides. -/
def Port.offer (isLeg : Bool) (cap : Nat) (c : QCell) (p : Port) : Port × Met :=
  if isLeg && !p.up then ({ p with downRefused := bump p.downRefused }, .downRefused)
  else match gatherInto c.cell p.queue with
  | some q => ({ p with queue := q, gathered := bump p.gathered }, .gathered)
  | none =>
    if p.queue.length < cap then ({ p with queue := p.queue ++ [c], accepted := bump p.accepted }, .appended)
    else if c.urgent then
      match takeYoungestOrdinary p.queue with
      | some (lost, q) =>
        ({ p with queue := q ++ [c], evicted := bump p.evicted, accepted := bump p.accepted }, .evicted lost)
      | none => ({ p with dropped := bump p.dropped }, .dropped)
    else ({ p with dropped := bump p.dropped }, .dropped)

/-! ## Cells the switch makes (R161) -/

/-- A cell from the switch, source 0x00. -/
def mkCell (kind dst tag : Octet) (payload : List Octet) : Cell :=
  { kind, dst, src := switchAddr, tag, payload := payloadOf payload }

/-- A NOTICE: the notice kind in octet 4, the subject in octet 5, data from octet 6, tag 0 (R183). -/
def noticeCell (k : NoticeKind) (subject : Nat) (data : List Octet) : Cell :=
  mkCell kindNotice headEndAddr 0 (oct k.code :: oct subject :: data)

/-- A RESPONSE: the command's tag, its kind in octet 4, the result code in octet 5, data from octet 6 (R178). -/
def responseCell (tag kind : Octet) (r : Result) (data : List Octet) : Cell :=
  mkCell kindResponse headEndAddr tag (kind :: oct r.code :: data)

/-- A cell is a QUEUE-LOSS notice. -/
def isQueueLoss (c : Cell) : Bool := c.kind == kindNotice && c.octet 4 == oct NoticeKind.queueLoss.code

/-! ## What a loss does to the maker (R172) -/

/-- The leg's poll was not sent: a poll still QUEUED becomes none (R120). -/
def LegPoll.unsent (l : LegPoll) : LegPoll :=
  match l.poll with
  | some p => if p.departed.isNone then { l with poll := none } else l
  | none => l

/-- A leg-broadcast CLOCK SET was refused or lost: sets refused + 1 and the broadcast is owed (R125, R172). -/
def LegPoll.owe (l : LegPoll) : LegPoll := { l with setsRefused := bump l.setsRefused, owed := true }

/-- The slot's test is given up: IDLE, zone and departure stamp absent, aborted + 1 (R108, R112). -/
def MeasSlot.abort (m : MeasSlot) : MeasSlot := { m with zone := none, departure := none, aborted := bump m.aborted }

/-- The test in progress is the one whose LINE TEST carries this number, and it has not departed (R108). -/
def MeasSlot.awaits (m : MeasSlot) (number : Octet) : Bool :=
  m.zone.isSome && m.departure.isNone && m.number == number

/-- An evicted LINE TEST abandons its test: the slot becomes IDLE and the zone returns to PENDING (R108). The zone had no
owner and keeps none, so the re-evaluation of R104 has nothing to hand on and is not made here (assumption 6). -/
def abandonTest (leg : Fin 4) (c : Cell) (s : State) : State :=
  if s.meas[leg].awaits (c.octet 5) then
    let freed := s.modMeas leg MeasSlot.abort
    match s.meas[leg].zone with
    | some k => freed.modZone (zoneOf leg k) fun z => { z with test := .pending }
    | none => freed
  else s

/-- The maker of a cell evicted from a leg queue is told (R172). -/
def tellLegLoss (leg : Fin 4) (c : Cell) (s : State) : State :=
  if c.kind = kindClockPoll then s.modPoll leg LegPoll.unsent
  else if c.kind = kindClockSet ∧ c.dst = broadcastAddr leg then s.modPoll leg LegPoll.owe
  else if c.kind = kindLineTest then abandonTest leg c s
  else if c.kind = kindDrillState then s.modDrill fun d => { d with owed := d.owed ||| BitVec.ofNat 4 (2 ^ leg.val) }
  else s

/-- The Management Engine counts a RESPONSE or a NOTICE that the upstream queue lost (R172, R178, R183). -/
def tellTrunkLoss (c : Cell) (s : State) : State :=
  if c.kind = kindResponse then s.modMgmt fun m => { m with lostResponses := bump m.lostResponses }
  else if c.kind = kindNotice then s.modMgmt fun m => { m with lostNotices := bump m.lostNotices }
  else s

/-- The maker of a cell that left a queue without departing is told. -/
def tellLoss (p : Fin 5) (c : Cell) (s : State) : State :=
  match portLeg p with
  | some leg => tellLegLoss leg c s
  | none => tellTrunkLoss c s

/-- The maker of an arrival that a full queue refused is told. On a leg the maker reads the answer of `offer` itself. -/
def tellRefused (p : Fin 5) (c : Cell) (s : State) : State :=
  if p = trunkPort then tellTrunkLoss c s else s

/-! ## Offers, notices and responses -/

/-- The reasons of a QUEUE-LOSS notice, in the order of R173. -/
inductive LossReason where
  | full | evict | flush
  deriving DecidableEq, Repr

def LossReason.code : LossReason → Nat
  | .full => 0 | .evict => 1 | .flush => 2

/-- The offer as the queue alone meets it. -/
def rawOffer (p : Fin 5) (c : QCell) (s : State) : State × Met :=
  let r := s.ports[p].offer (decide (p ≠ trunkPort)) (capacity p) c
  (s.modPort p fun _ => r.1, r.2)

/-- A notice kind's enable is on (R183). -/
def noticeEnabled (k : NoticeKind) (s : State) : Bool := s.mgmt.enables.getLsbD k.code

/-- A QUEUE-LOSS notice of queue p, carrying the counters after the loss. One that is itself refused counts as a lost
notice and sends no further QUEUE-LOSS (R173). -/
def queueLoss (p : Fin 5) (r : LossReason) (lostKind : Octet) (s : State) : State :=
  if noticeEnabled .queueLoss s then
    let q := s.ports[p]
    let c := noticeCell .queueLoss p.val (u8 r.code ++ [lostKind] ++ u16 q.dropped ++ u16 q.evicted)
    let (t, met) := rawOffer trunkPort { cell := c, urgent := false, maker := .management } s
    if met.accepted then t else tellTrunkLoss c t
  else s

/-- A loss of cell c in queue p: its QUEUE-LOSS, unless c is itself a QUEUE-LOSS (R173). -/
def reportLoss (p : Fin 5) (r : LossReason) (c : Cell) (s : State) : State :=
  if isQueueLoss c then s else queueLoss p r c.kind s

/-- A cell offered to a queue, the makers told and the loss reported (R169, R172, R173). The answer is whether the cell
counts as accepted for its maker. -/
def offer (p : Fin 5) (c : QCell) (s : State) : State × Bool :=
  let (t, met) := rawOffer p c s
  match met with
  | .evicted lost => (reportLoss p .evict lost.cell (tellLoss p lost.cell t), true)
  | .dropped => (reportLoss p .full c.cell (tellRefused p c.cell t), false)
  | .gathered => (t, true)
  | .appended => (t, true)
  | .downRefused => (t, false)

/-- A notice is made only while its kind's enable is on, and is offered upstream as ordinary (R183). -/
def notify (k : NoticeKind) (subject : Nat) (data : List Octet) (s : State) : State :=
  if noticeEnabled k s then
    (offer trunkPort { cell := noticeCell k subject data, urgent := false, maker := .management } s).1
  else s

/-- A RESPONSE cell offered upstream as urgent. -/
def offerResponse (tag kind : Octet) (r : Result) (data : List Octet) (s : State) : State :=
  (offer trunkPort { cell := responseCell tag kind r data, urgent := true, maker := .management } s).1

/-- The result is counted if it refuses, and then the RESPONSE is offered (R178). -/
def respond (tag kind : Octet) (r : Result) (data : List Octet) (s : State) : State :=
  offerResponse tag kind r data
    (if r.refuses then s.modMgmt fun m => { m with refused := bump m.refused } else s)

/-! ## Cells to the legs -/

/-- A leg-broadcast CLOCK SET offered to a leg (R125 to R127): accepted or gathered it counts as queued and clears the owed
flag, refused it counts as refused and is owed. -/
def offerBroadcast (leg : Fin 4) (s : State) : State :=
  let (t, ok) := offer (legPort leg)
    { cell := mkCell kindClockSet (broadcastAddr leg) 0 [], urgent := false, maker := .roster } s
  if ok then t.modPoll leg fun l => { l with setsQueued := bump l.setsQueued, owed := false }
  else t.modPoll leg LegPoll.owe

/-- A DRILL STATE cell with the present state offered to a leg, its elapsed field left for the departure. An accepted one
clears the leg's owed flag, a refused one sets it (R151). -/
def offerDrillState (leg : Fin 4) (s : State) : State :=
  let target := (s.drill.record.map (·.target)).getD 0
  let (t, ok) := offer (legPort leg)
    { cell := mkCell kindDrillState (broadcastAddr leg) 0 (u8 s.drill.state.code ++ u16 target), urgent := true,
      maker := .drill } s
  let bit := BitVec.ofNat 4 (2 ^ leg.val)
  t.modDrill fun d => { d with owed := if ok then without d.owed bit else d.owed ||| bit }

/-- AMP WAKE or AMP REST for a zone, urgent, to the rack of its leg (4.5). A refusal changes nothing (R172). -/
def offerAmp (kind : Octet) (z : Fin 16) (s : State) : State :=
  (offer (legPort (legOfZone z))
    { cell := mkCell kind (ampAddr (legOfZone z)) 0 (u8 (slotOfZone z).val), urgent := true, maker := .zoneArbiter } s).1

end Sys2Proof.Machine
end

