-- ==== Sys2Proof/Machine/Zones.lean ====
section
/-!
DEFINITION. The Zone Arbiter's contest for a zone: floors, claims, ownership, the re-evaluation of a zone and the wake of
its amplifier (4.1, 4.2, 4.5). The release of PENDING pages that ends a re-evaluation stands in Pages.lean.
-/
namespace Sys2Proof.Machine

/-! ## Floors (R66) -/

/-- The lowest priority that a mode admits. -/
def Mode.floor : Mode → Nat
  | .day => 1
  | .quiet => 7
  | .night => 12
  | .closed => 15

/-- The effective floor of a zone: the mode floor, raised to the drill floor while the drill state is not IDLE. -/
def State.floor (s : State) (z : Fin 16) : Nat :=
  if s.drill.state = .idle then s.zones[z].mode.floor else max s.zones[z].mode.floor s.za.drillFloor

/-! ## Ownership (R70) -/

/-- The claim with which a claimant contends for a zone: it wants the zone and is admitted to it. -/
def State.contends (s : State) (z : Fin 16) (c : Fin 13) : Option Claim :=
  s.claims[c].filter fun k => k.wanted.getLsbD z.val && decide (s.floor z ≤ k.priority)

/-- A contender is better than another: a higher priority, at equal priority an older open stamp, at equal age a lower
claimant number. -/
def better (now : Word32) (a b : Fin 13 × Claim) : Bool :=
  decide (b.2.priority < a.2.priority) ||
    (a.2.priority == b.2.priority &&
      (decide (since now b.2.stamp < since now a.2.stamp) ||
        (since now a.2.stamp == since now b.2.stamp && decide (a.1 < b.1))))

/-- The contenders for a zone in ascending claimant number. -/
def State.contenders (s : State) (z : Fin 16) : List (Fin 13 × Claim) :=
  (List.finRange 13).filterMap fun c => (s.contends z c).map fun k => (c, k)

/-- The best of a list of contenders. -/
def bestOf (now : Word32) : List (Fin 13 × Claim) → Option (Fin 13 × Claim)
  | [] => none
  | a :: rest =>
    match bestOf now rest with
    | none => some a
    | some b => if better now a b then some a else some b

/-- An equal that came to a zone in the event in progress contests it with its owner, being better, where both owe their
place to events of this frame (R73; assumption 36): the owner took the zone in an earlier event, or took it in this one
having gained by an earlier one. -/
def State.challenges (s : State) (z : Fin 16) (o d : Fin 13 × Claim) : Bool :=
  d.2.priority == o.2.priority && s.contest.now.joined[d.1].getLsbD z.val && better s.elapsed d o &&
    (if s.contest.now.taken.getLsbD z.val then s.contest.gained[o.1].getLsbD z.val else s.contest.taken.getLsbD z.val)

/-- The owner that R70 decides: the present owner keeps the zone while it still contends and no contender has a strictly
higher priority; otherwise the best contender takes it. The stamps of all equals decide again where two events of one frame
meet (R73). -/
def State.decideOwner (s : State) (z : Fin 16) : Option (Fin 13) :=
  let all := s.contenders z
  let best := (bestOf s.elapsed all).map (·.1)
  match s.zones[z].owner with
  | none => best
  | some o =>
    match s.contends z o with
    | none => best
    | some k => if all.any fun d => decide (k.priority < d.2.priority) || s.challenges z (o, k) d then best else some o

/-- The priority at which a zone is owned. -/
def State.ownerPriority (s : State) (z : Fin 16) : Option Nat :=
  s.zones[z].owner.bind fun c => s.claims[c].map (·.priority)

/-- The wait set: the claimants that want the zone and do not own it, admitted or not. -/
def State.waitSet (s : State) (z : Fin 16) : BitVec 13 :=
  setOf fun c => (s.claims[c].any fun k => k.wanted.getLsbD z.val) && decide (s.zones[z].owner ≠ some c)

/-- The granted set of a page: the zones it owns. -/
def State.granted (s : State) (p : Fin 8) : ZoneSet :=
  setOf fun z => decide (s.zones[z].owner = some (pageClaimant p))

/-! ## The test of R76 (R73, R76, R77) -/

/-- A page of this priority would not win a zone: its owner has the same or a higher priority. An owner that is excused at
the zone does not count; then another contender may be in the way (R73; assumption 37). -/
def State.bars (s : State) (priority : Nat) (excused : Vector ZoneSet 13) (z : Fin 16) : Bool :=
  s.zones[z].owner.any fun o =>
    if excused[o].getLsbD z.val then
      (s.contenders z).any fun d => !excused[d.1].getLsbD z.val && decide (priority ≤ d.2.priority)
    else s.claims[o].any fun k => decide (priority ≤ k.priority)

/-- The test of R76 with some claimants excused: an all-or-none page starts when it would win every zone of its wanted set to
which it is admitted. -/
def State.passes (s : State) (p : Fin 8) (excused : Vector ZoneSet 13) : Bool :=
  let g := s.pages[p]
  !g.allOrNone || (members g.wanted).all fun z => decide (g.priority < s.floor z) || !s.bars g.priority excused z

/-- Page p is re-examined before page q: an older open stamp, and the lower slot at equal age (R77). -/
def examinedBefore (s : State) (p q : Fin 8) : Bool :=
  let a := since s.elapsed s.pages[p].openStamp
  let b := since s.elapsed s.pages[q].openStamp
  decide (b < a) || (a == b && decide (p ≤ q))

/-! ## The contest of a frame (R73) -/

/-- The zones for which a claimant contends. -/
def State.contended (s : State) (c : Fin 13) : ZoneSet := setOf fun z => (s.contends z c).isSome

/-- The zones, of those for which a claimant contends before and after a change, at which a better contender went. -/
def State.clearedFor (before s : State) (c : Fin 13) : ZoneSet :=
  setOf fun z => match before.contends z c, s.contends z c with
    | some k, some _ => (before.contenders z).any fun d => (s.contends z d.1).isNone && better s.elapsed d (c, k)
    | _, _ => false

/-- The claimants that hold a page back at a zone that it wants and is admitted to, those excused there apart. -/
def State.barring (s : State) (p : Fin 8) (z : Fin 16) : BitVec 13 :=
  let g := s.pages[p]
  setOf fun c => g.wanted.getLsbD z.val && decide (s.floor z ≤ g.priority)
    && (s.contends z c).any (fun k => decide (g.priority ≤ k.priority)) && !s.contest.excused[p][c].getLsbD z.val

/-- The PENDING pages that a change of claims or floors frees from a claim that held them back somewhere. -/
def State.easedBy (before s : State) : PageSet :=
  setOf fun p => decide (before.pages[p].state = .pending) &&
    (List.finRange 16).any fun z => decide (without (before.barring p z) (s.barring p z) ≠ 0)

/-- A claimant is a PENDING page that an earlier event of the frame freed from a claim that held it back. -/
def State.wasEased (s : State) (c : Fin 13) : Bool :=
  if h : c.val < 8 then decide (s.pages[(⟨c.val, h⟩ : Fin 8)].state = .pending) && s.contest.eased.getLsbD c.val else false

/-- A change of claims or floors: the zones that a claimant joined are noted, and of those that it joined or left nothing
older is remembered. A page whose release an earlier event of the frame helped comes to its zones by that event too
(assumption 36). A page of which a claim that held it back is removed is held by the event until a re-examination finds none
of the event's own claims in its way (assumption 37). `before` is the state before the change. -/
def noteJoined (before s : State) : State :=
  let came (c : Fin 13) : ZoneSet := without (s.contended c) (before.contended c)
  let left (c : Fin 13) : ZoneSet := without (before.contended c) (s.contended c)
  let eased := before.easedBy s
  s.modContest fun k => { k with
    gained := Vector.ofFn fun c => without k.gained[c] (came c ||| left c) ||| (if before.wasEased c then came c else 0)
    excused := Vector.ofFn fun p => Vector.ofFn fun c => without k.excused[p][c] (came c ||| left c)
    now := { k.now with
      joined := Vector.ofFn fun c => without k.now.joined[c] (left c) ||| came c
      cleared := Vector.ofFn fun c => without k.now.cleared[c] (left c) ||| before.clearedFor s c
      fresh := Vector.ofFn fun p => Vector.ofFn fun c => without k.now.fresh[p][c] (left c) ||| came c
      eased := k.now.eased ||| eased
      held := k.now.held ||| eased } }

/-- A claim that joined a zone in the event in progress holds a page back there. -/
def State.barredByEvent (s : State) (p : Fin 8) : Bool :=
  (List.finRange 16).any fun z => (List.finRange 13).any fun c =>
    (s.barring p z).getLsbD c.val && s.contest.now.joined[c].getLsbD z.val

/-- A PENDING page that a re-examination leaves PENDING. Where none of the event's own claims is in its way, only claims
older than the event are: the event holds it no longer, and what comes from now on is fresh to it (assumption 37). -/
def waitOn (p : Fin 8) (s : State) : State :=
  if s.contest.now.held.getLsbD p.val && !s.barredByEvent p then
    s.modContest fun k => { k with now := { k.now with
      fresh := k.now.fresh.set p (Vector.replicate 13 0), held := without k.now.held (BitVec.twoPow 8 p.val) } }
  else s

/-- The end of an event: what changed hands, what was joined and which pages were freed of a claim in it belongs from now on
to the events of the frame that are over. A page that was PENDING through the event, and that the event does not hold,
excuses the claims that are fresh to it (assumption 37). -/
def Contest.close (before after : State) (k : Contest) : Contest :=
  let old := before.contest.now
  { taken := k.taken ||| without k.now.taken old.taken
    gained := Vector.ofFn fun c => k.gained[c] ||| without (k.now.joined[c] ||| k.now.cleared[c]) (old.joined[c] ||| old.cleared[c])
    excused := Vector.ofFn fun p =>
      if before.pages[p].state = .pending ∧ after.pages[p].state = .pending ∧ k.now.held.getLsbD p.val = false then
        Vector.ofFn fun c => k.excused[p][c] ||| without k.now.fresh[p][c] old.fresh[p][c]
      else k.excused[p]
    eased := k.eased ||| without k.now.eased old.eased
    now := old }

/-- One event that may change the contest for zones: within it R70 and R77 hold as they stand, and when it is over it counts
as an earlier event of the frame (R73). -/
def asEvent (act : State → State) (s : State) : State :=
  let t := act s
  t.modContest (Contest.close s t)

/-! ## Power (R88) -/

/-- A STANDBY zone is woken: AMP WAKE is queued, the power becomes WAKING with its wake stamp. -/
def wakeZone (z : Fin 16) (s : State) : State :=
  (offerAmp kindAmpWake z s).modZone z fun k => { k with power := .waking, wakeStamp := some s.elapsed }

/-! ## Re-evaluation of zones (R71) -/

/-- A zone is idle when it has no owner and its test state is NONE (R65). -/
def Zone.isIdle (z : Zone) : Bool := z.owner.isNone && decide (z.test = .none)

/-- A claim ends the test of the zone it has taken: PENDING again, the measurement slot freed (R112). -/
def abortTestByClaim (z : Fin 16) (s : State) : State :=
  (s.modZone z fun k => { k with test := .pending }).modMeas (legOfZone z) fun m =>
    if m.zone = some (slotOfZone z) then m.abort else m

/-- The new owner is handed on, and the zone counts as taken in this event; a zone that gains an owner under test leaves
testing. -/
def handOwner (z : Fin 16) (new : Option (Fin 13)) (s : State) : State :=
  if s.zones[z].owner = new then s
  else
    let t := (s.modZone z fun k => { k with owner := new }).modContest fun x =>
      { x with now := { x.now with taken := x.now.taken ||| BitVec.twoPow 16 z.val } }
    if new.isSome ∧ s.zones[z].test = .testing then abortTestByClaim z t else t

/-- A STANDBY zone that now has an owner, or whose test state has become pending, is woken. -/
def wakeIfWanted (z : Fin 16) (s : State) : State :=
  let k := s.zones[z]
  if k.power = .standby ∧ (k.owner.isSome ∨ k.test = .pending) then wakeZone z s else s

/-- A zone that has become idle takes the present elapsed count as its idle stamp. -/
def stampIdle (wasIdle : Bool) (z : Fin 16) (s : State) : State :=
  if s.zones[z].isIdle && !wasIdle then s.modZone z fun k => { k with idleStamp := s.elapsed } else s

/-- The re-evaluation of one zone. `wasIdle` is whether it was idle before the event. -/
def reevalZone (wasIdle : Bool) (z : Fin 16) (s : State) : State :=
  stampIdle wasIdle z (wakeIfWanted z (handOwner z (s.decideOwner z) s))

/-- The re-evaluation of several zones by one event, in the order given, which is ascending at every use. `before` is the
state before the event. -/
def reevalZones (before : State) (zs : List (Fin 16)) (s : State) : State :=
  zs.foldl (fun t z => reevalZone before.zones[z].isIdle z t) (noteJoined before s)

/-! ## Claims (R69, R72) -/

/-- The wanted set of a claimant; one whose claim does not stand wants no zone. -/
def State.wanted (s : State) (c : Fin 13) : ZoneSet := (s.claims[c].map Claim.wanted).getD 0

/-- The filtered set of a claimant. -/
def State.filteredSet (s : State) (c : Fin 13) : ZoneSet := (s.claims[c].map Claim.filtered).getD 0

/-- The zones that join a claimant's wanted set and count it as filtered: newly wanted, not admitted, not counted yet. -/
def State.newlyFiltered (s : State) (c : Fin 13) (priority : Nat) (wanted : ZoneSet) : ZoneSet :=
  setOf fun z => wanted.getLsbD z.val && !(s.wanted c).getLsbD z.val && decide (priority < s.floor z)
    && !(s.filteredSet c).getLsbD z.val

/-- A claim is placed or changed: the filtered counters of the zones that join it are counted, and zones that leave the
wanted set leave the filtered set. -/
def placeClaim (c : Fin 13) (priority : Nat) (wanted : ZoneSet) (stamp : Word32) (s : State) : State :=
  let fresh := s.newlyFiltered c priority wanted
  let kept := s.filteredSet c &&& wanted
  (members fresh).foldl (fun t z => t.modZone z fun k => { k with filtered := bump k.filtered })
    (s.setClaim c (some { priority, wanted, stamp, filtered := kept ||| fresh }))

/-- A claim is withdrawn, and its filtered set with it. -/
def withdrawClaim (c : Fin 13) (s : State) : State := s.setClaim c none

end Sys2Proof.Machine
end

