-- ==== Sys2Proof/Machine/Bells.lean ====
section
/-!
DEFINITION. The generators and the Generator Arbiter: starts, the hand-over to the bell queue, chime requests (2.3, 2.4).
A bell request, which re-evaluates zones to the end, stands in Pages.lean.
-/
namespace Sys2Proof.Machine

/-! ## Starts (R30, R31, R34) -/

/-- The phase increment of a tone of f Hz (R31). -/
def toneIncrement (f : Nat) : Nat := (f * 65536 + 4000) / 8000

/-- The increment of a step of a pattern: that of its tone, 0 for SILENCE (R30). -/
def Pattern.increment (p : Pattern) (s : PatStep) : Nat :=
  match s.kind with
  | .toneA => toneIncrement p.toneA
  | .toneB => toneIncrement (p.toneB.getD 0)
  | .silence => 0

/-- The duration of a step in ms (R24). -/
def PatStep.ms (s : PatStep) : Nat := 10 * s.units

/-- Repeats remaining at a start: a HELD play takes a count of 0 as CONTINUOUS, every other play takes it as 1 (R30). -/
def startRepeats (held : Bool) (count : Nat) : Repeats :=
  if held then (if count = 0 then .continuous else .finite count) else .finite (max 1 count)

/-- A generator enters a step of its pattern (R30, R32). -/
def Gen.enterStep (p : Pattern) (i : Nat) (g : Gen) : Gen :=
  match p.steps[i]? with
  | some st => { g with stepIndex := i, remaining := st.ms, phase := 0, increment := p.increment st }
  | none => { g with stepIndex := i, remaining := 0, phase := 0, increment := 0 }

/-- A start on a pattern that is not empty (R30). -/
def Gen.start (p : Pattern) (g : Gen) : Gen :=
  ({ g with running := true, repeats := startRepeats g.held p.repeatCount,
            passRepeats := startRepeats g.held p.repeatCount }).enterStep p 0

/-- A start of EG on an empty pattern (R34). -/
def Gen.startEmpty (g : Gen) : Gen :=
  let r := if g.held then Repeats.continuous else Repeats.finite 1
  { g with running := true, stepIndex := 0, remaining := 0, increment := 0, phase := 0, repeats := r, passRepeats := r }

/-- The pattern at an index of the table, none when it is empty. -/
def Arbiter.pattern (a : Arbiter) (n : Nat) : Option Pattern := if h : n < 16 then a.patterns[n] else none

/-- A generator started with the fields that the request gives it. Its step begins now, so a step end that fell due in
this frame is not its own. -/
def startGen (g : Fin 5) (fields : Gen → Gen) (s : State) : State :=
  (s.take (.generatorStepEnd g)).modGen g fun old =>
    let f := fields old
    match s.arb.pattern f.pattern with
    | some p => f.start p
    | none => f.startEmpty

/-- A generator becomes IDLE; it keeps its other fields (R29). -/
def stopGen (g : Fin 5) (s : State) : State := s.modGen g fun x => { x with running := false }

/-! ## The pool (R36, R38) -/

/-- The lowest-numbered IDLE tone generator. -/
def idleTg (s : State) : Option (Fin 4) := (List.finRange 4).find? fun g => !s.gens[tgGen g].running

/-- A bell starts on a tone generator: the record is set, the claim placed and its zones re-evaluated, the start counted. -/
def startBell (g : Fin 4) (r : BellReq) (s : State) : State :=
  let t := startGen (tgGen g) (fun x => { x with
    use := .bell, held := false, pattern := r.pattern, priority := r.priority
    zones := r.zones, page := none, stamp := some r.stamp, origin := some r.origin }) s
  let u := t.modArb fun a => { a with started := bump a.started }
  reevalZones s (members (u.wanted (tgClaimant g) ||| r.zones)) (placeClaim (tgClaimant g) r.priority r.zones r.stamp u)

/-- The reasons of a BELL-DROP notice, in the order of R183. -/
inductive DropReason where
  | full | late | empty
  deriving DecidableEq, Repr

def DropReason.code : DropReason → Nat
  | .full => 0 | .late => 1 | .empty => 2

/-- A BELL-DROP notice (R37, R38). -/
def bellDrop (reason : DropReason) (zones : ZoneSet) (pattern priority : Nat) (origin : Origin) (s : State) : State :=
  notify .bellDrop pattern (u8 reason.code ++ u8 priority ++ u16 zones.toNat ++ u8 origin.code) s

/-- An idle generator meets the bell queue: late and empty heads are discarded, the first other head starts (R38). -/
def handOverQueue (g : Fin 4) : List BellReq → State → State
  | [], s => s
  | r :: rest, s =>
    let t := s.modArb fun a => { a with queue := rest }
    if s.arb.lateLimit < since s.elapsed r.stamp then
      handOverQueue g rest (bellDrop .late r.zones r.pattern r.priority r.origin
        (t.modArb fun a => { a with lateDiscard := bump a.lateDiscard }))
    else if (s.arb.pattern r.pattern).isNone then
      handOverQueue g rest (bellDrop .empty r.zones r.pattern r.priority r.origin
        (t.modArb fun a => { a with emptyDiscard := bump a.emptyDiscard }))
    else startBell g r t

/-- Hand-over of a tone generator that is IDLE (R38). -/
def handOver (g : Fin 4) (s : State) : State :=
  if s.gens[tgGen g].running then s else handOverQueue g s.arb.queue s

/-! ## Chimes (R39) -/

/-- A chime request: any idle generator is handed to a waiting bell first (R38), then the lowest IDLE one starts the chime,
unless the pattern is empty or none is IDLE. The answer is the generator, or none where the request is refused. -/
def chimeRequest (p : Fin 8) (pattern priority : Nat) (s : State) : State × Option (Fin 4) :=
  let t := (List.finRange 4).foldl (fun u g => handOver g u) s
  match t.arb.pattern pattern, idleTg t with
  | some _, some g =>
    ((startGen (tgGen g) (fun x => { x with
        use := .chime, held := false, pattern, priority, zones := 0, page := some p
        stamp := none, origin := none }) t).modArb fun a => { a with chimesStarted := bump a.chimesStarted }, some g)
  | _, _ => (t.modArb fun a => { a with chimesRefused := bump a.chimesRefused }, none)

end Sys2Proof.Machine
end

