-- ==== Sys2Proof/Machine/Pages.lean ====
section
/-!
DEFINITION. Pages and their release, the whole re-evaluation of R71, the end of a page, bell requests and the end of a
bell or chime (4.3, 2.4).
-/
namespace Sys2Proof.Machine

/-! ## The start of a page (R76, R78) -/

/-- The test of R76 for a page, with what is excused against it in the present frame. -/
def mayStart (p : Fin 8) (s : State) : Bool := s.passes p s.contest.excused[p]

/-- The page becomes LIVE and takes its silence stamp (R83). -/
def becomeLive (p : Fin 8) (s : State) : State :=
  s.modPage p fun g => { g with state := .live, silenceStamp := some s.elapsed }

/-- The page's claim is placed on its wanted set with its open stamp, and the zones are re-evaluated (R76). The page is no
longer PENDING; `askChime` settles whether it is CHIMING or LIVE. -/
def claimPage (p : Fin 8) (s : State) : State :=
  let g := s.pages[p]
  reevalZones s (members g.wanted)
    (placeClaim (pageClaimant p) g.priority g.wanted g.openStamp (s.modPage p fun x => { x with state := .live }))

/-- The page asks for its chime, or becomes LIVE where it has none or the request is refused (R78). -/
def askChime (p : Fin 8) (s : State) : State :=
  let g := s.pages[p]
  match g.chime with
  | none => becomeLive p s
  | some pat =>
    match chimeRequest p pat g.priority s with
    | (t, some k) => t.modPage p fun x => { x with state := .chiming, chimeGen := some k }
    | (t, none) => becomeLive p (t.modPage p fun x => { x with chimeSkipped := true })

/-! ## Re-examination of PENDING pages (R77) -/

/-- A page at its place in the order of re-examination. -/
def insertPage (s : State) (p : Fin 8) : List (Fin 8) → List (Fin 8)
  | [] => [p]
  | q :: rest => if examinedBefore s p q then p :: q :: rest else q :: insertPage s p rest

/-- The PENDING pages in the order in which they are re-examined. -/
def pendingPages (s : State) : List (Fin 8) :=
  ((List.finRange 8).filter fun p => decide (s.pages[p].state = .pending)).foldr (insertPage s) []

/-- Each PENDING page is tested against ownership as it stands after those before it, and starts if it passes. -/
def reexamine (s : State) : State :=
  (pendingPages s).foldl (fun t p => if mayStart p t then askChime p (claimPage p t) else waitOn p t) s

/-- A re-evaluation from its first zone to the release of PENDING pages (R71). -/
def reevaluate (before : State) (zs : List (Fin 16)) (s : State) : State := reexamine (reevalZones before zs s)

/-- Every zone. -/
def allZones : List (Fin 16) := List.finRange 16

/-- A claim placed or changed, and the zones of its old and new wanted sets re-evaluated (R71). -/
def changeClaim (c : Fin 13) (priority : Nat) (wanted : ZoneSet) (stamp : Word32) (s : State) : State :=
  reevaluate s (members (s.wanted c ||| wanted)) (placeClaim c priority wanted stamp s)

/-- A claim withdrawn, and the zones of its wanted set re-evaluated (R71). -/
def dropClaim (c : Fin 13) (s : State) : State := reevaluate s (members (s.wanted c)) (withdrawClaim c s)

/-! ## The end of a bell, a chime or a page (R33, R38, R81) -/

/-- An IDLE tone generator is handed over; PENDING pages are re-examined after the claim this may place. -/
def handOverFully (g : Fin 4) (s : State) : State := reexamine (handOver g s)

/-- A tone generator serving a bell finishes: IDLE, its claim withdrawn, then handed over (R33). -/
def finishBell (g : Fin 4) (s : State) : State :=
  handOverFully g (dropClaim (tgClaimant g) (stopGen (tgGen g) s))

/-- A tone generator serving a chime finishes: its page, if CHIMING with it, becomes LIVE; then it is handed over (R33,
R78). -/
def finishChime (g : Fin 4) (s : State) : State :=
  let t := stopGen (tgGen g) s
  let u := match s.gens[tgGen g].page with
    | some p =>
      if t.pages[p].state = .chiming ∧ t.pages[p].chimeGen = some g then
        becomeLive p (t.modPage p fun x => { x with chimeGen := none })
      else t
    | none => t
  handOverFully g u

/-- The reasons of a page's end, in the order of R81. -/
inductive EndCause where
  | closed | maxTime | silence
  deriving DecidableEq, Repr

def EndCause.code : EndCause → Nat
  | .closed => 0 | .maxTime => 1 | .silence => 2

/-- The chime generator of a CHIMING page is stopped and handed over (R81). -/
def stopChime (p : Fin 8) (s : State) : State :=
  match s.pages[p].state, s.pages[p].chimeGen with
  | .chiming, some g => handOverFully g (stopGen (tgGen g) s)
  | _, _ => s

/-- The page holds claims: it is CHIMING or LIVE (R74). -/
def PageState.holdsClaim : PageState → Bool
  | .chiming | .live => true
  | .free | .pending => false

/-- A page ends: its chime stopped, its claims withdrawn, FREE, and PAGE-END sent (R81). The end of a PENDING page
re-examines the other PENDING pages. -/
def endPage (p : Fin 8) (reason : EndCause) (s : State) : State :=
  let g := s.pages[p]
  let t := stopChime p s
  let freed (x : State) : State := x.modPage p fun y => { y with state := .free }
  let u := if g.state.holdsClaim then freed (dropClaim (pageClaimant p) t) else reexamine (freed t)
  notify .pageEnd p.val (u8 reason.code ++ [g.tag] ++ u32 (since s.elapsed g.openStamp) ++ flag g.chimeSkipped) u

/-! ## Bell requests (R36, R37) -/

/-- The arbiter's answer to a bell request, with the generator number or the place in the bell queue. -/
inductive BellAnswer where
  | started (g : Fin 4)
  | merged (g : Fin 4)
  | queued (position : Nat)
  | queueMerged (position : Nat)
  | dropped
  deriving DecidableEq, Repr

def BellAnswer.outcome : BellAnswer → FireOutcome
  | .started _ => .started
  | .merged _ => .merged
  | .queued _ => .queued
  | .queueMerged _ => .queueMerged
  | .dropped => .dropped

/-- A running generator into which a request of this pattern and priority merges: a bell in step 0 of its first pass
(R36). -/
def Gen.merges (pattern priority : Nat) (g : Gen) : Bool :=
  g.running && decide (g.use = .bell) && g.pattern == pattern && g.priority == priority && g.stepIndex == 0
    && decide (g.repeats = g.passRepeats)

/-- The lowest-numbered tone generator that a request merges into. -/
def mergeTarget (pattern priority : Nat) (s : State) : Option (Fin 4) :=
  (List.finRange 4).find? fun g => s.gens[tgGen g].merges pattern priority

/-- A request merged into a running bell: the zone set and the claim grow to the union. A merge that adds no zone is counted
and changes nothing else (R36). -/
def mergeBell (g : Fin 4) (zones : ZoneSet) (s : State) : State :=
  let x := s.gens[tgGen g]
  let t := s.modArb fun a => { a with merged := bump a.merged }
  if x.zones ||| zones = x.zones then t
  else changeClaim (tgClaimant g) x.priority (x.zones ||| zones) (x.stamp.getD 0)
    (t.modGen (tgGen g) fun y => { y with zones := y.zones ||| zones })

/-- The bell queue with a request's zones added to the entry of the same pattern and priority, and that entry's position
(R37). -/
def queueMerge (zones : ZoneSet) (pattern priority : Nat) : List BellReq → Option (List BellReq × Nat)
  | [] => none
  | r :: rest =>
    if r.pattern = pattern ∧ r.priority = priority then some ({ r with zones := r.zones ||| zones } :: rest, 0)
    else (queueMerge zones pattern priority rest).map fun q => (r :: q.1, q.2 + 1)

/-- The bell queue holds at most 8 requests (R35). -/
def bellQueueCapacity : Nat := 8

/-- A request that was neither merged nor started meets the bell queue (R37). -/
def meetBellQueue (zones : ZoneSet) (pattern priority : Nat) (origin : Origin) (s : State) : State × BellAnswer :=
  match queueMerge zones pattern priority s.arb.queue with
  | some (q, i) => (s.modArb fun a => { a with queue := q, queueMerged := bump a.queueMerged }, .queueMerged i)
  | none =>
    if s.arb.queue.length < bellQueueCapacity then
      (s.modArb fun a => { a with queue := a.queue ++ [⟨zones, pattern, priority, origin, s.elapsed⟩],
                                  queued := bump a.queued }, .queued s.arb.queue.length)
    else (bellDrop .full zones pattern priority origin (s.modArb fun a => { a with fullDrop := bump a.fullDrop }), .dropped)

/-- A bell request, taken whole: merged, started on the lowest IDLE generator, or put to the bell queue (R36, R37). -/
def bellRequest (zones : ZoneSet) (pattern priority : Nat) (origin : Origin) (s : State) : State × BellAnswer :=
  match mergeTarget pattern priority s with
  | some g => (mergeBell g zones s, .merged g)
  | none =>
    match idleTg s with
    | some g => (reexamine (startBell g ⟨zones, pattern, priority, origin, s.elapsed⟩ s), .started g)
    | none => meetBellQueue zones pattern priority origin s

end Sys2Proof.Machine
end

