-- ==== Sys2Proof/Machine/Drills.lean ====
section
/-!
DEFINITION. The Drill Sequencer: the change of drill state, the evacuation generator, the drill record and the muster list,
the contact inputs, and the end of a generator's step (chapter 8; R32, R33).
-/
namespace Sys2Proof.Machine

/-! ## The change of drill state (R138, R139) -/

/-- What EG plays and claims in a drill state. -/
structure EgPlan where
  use : GenUse
  held : Bool
  pattern : Nat
  zones : ZoneSet
  priority : Nat
  deriving DecidableEq, Repr

/-- The set of all sixteen zones. -/
def everyZone : ZoneSet := 0xFFFF

/-- The table of R138; none where EG is stopped. -/
def Drill.egPlan (d : Drill) : Option EgPlan :=
  match d.state with
  | .prealert => some ⟨.drill, true, d.prealertPattern, (d.record.map DrillRecord.staff).getD 0, 14⟩
  | .evacuate => some ⟨.drill, true, d.evacPattern, everyZone, 14⟩
  | .allclear => some ⟨.drill, false, d.allclearPattern, everyZone, 14⟩
  | .alarm => some ⟨.alarm, true, d.alarmPattern, everyZone, 15⟩
  | .idle | .hold | .alarmSilenced => none

/-- EG and its claim set for the drill state in force; the zones are not yet re-evaluated (R138). -/
def setEg (s : State) : State :=
  match s.drill.egPlan with
  | some e =>
    placeClaim egClaimant e.priority e.zones s.elapsed
      (startGen egGen (fun x => { x with
        use := e.use, held := e.held, pattern := e.pattern, priority := e.priority, zones := e.zones
        page := none, stamp := some s.elapsed, origin := none }) s)
  | none => withdrawClaim egClaimant (stopGen egGen s)

/-- The health of a zone counts as faulted (R113). -/
def Health.faulted : Health → Bool
  | .unknown | .normal => false
  | .short | .low | .high | .openLine | .fault | .noReply => true

/-- Every mustered room cleared within the target; absent with an empty muster list (R147). -/
def Drill.allCleared (d : Drill) (r : DrillRecord) : Option Bool :=
  if r.musterCount = 0 then none
  else some (d.muster.all fun e => e.cleared.any fun t => decide (t ≤ r.target * 1000))

/-- A running record is finalised; a finalised record does not change again (R147). -/
def finaliseRecord (reason : EndReason) (s : State) : State :=
  s.modDrill fun d => { d with record := d.record.map fun r =>
    if r.endReason.isSome then r
    else { r with endReason := some reason, allCleared := d.allCleared r,
                  faulted := some (setOf fun z => s.zones[z].health.faulted) } }

/-- The muster list: one entry for each expected room, in ascending room number (R141). -/
def musterList (s : State) : List MusterEntry :=
  ((List.finRange 128).filter fun r => decide (s.rooms[r].state ≠ .absent)).map fun r => ⟨r.val, none⟩

/-- Entry to EVACUATE: the evacuation start stamp, the drill elapsed time at 0, the muster list (R141). -/
def enterEvacuate (s : State) : State :=
  let m := musterList s
  s.modDrill fun d => { d with elapsed := some 0, muster := m, record := d.record.map fun r =>
    { r with evacStart := some s.elapsed, musterCount := m.length, clearedCount := 0, lastClear := none } }

/-- The cause of HOLD as the record keeps it (R147). -/
def Cause.holdCause : Cause → Option HoldCause
  | .holdCommand => some .holdCommand
  | .key => some .key
  | .autoHold => some .autoHold
  | .toneLimit => some .toneLimit
  | _ => none

/-- Entry to HOLD: hold-reached time and hold cause (R142). -/
def enterHold (cause : Cause) (s : State) : State :=
  s.modDrill fun d => { d with record := d.record.map fun r =>
    { r with holdReached := d.elapsed, holdCause := cause.holdCause } }

/-- A drill is in its course: PREALERT, EVACUATE, HOLD or ALLCLEAR (R56, R148). -/
def DrillState.inDrill : DrillState → Bool
  | .prealert | .evacuate | .hold | .allclear => true
  | .idle | .alarm | .alarmSilenced => false

/-- The drill record and muster list as the rules for the new state give (R139, step 3). -/
def updateRecord (old new : DrillState) (cause : Cause) (s : State) : State :=
  match new with
  | .evacuate => enterEvacuate s
  | .hold => enterHold cause s
  | .alarm => if old.inDrill then finaliseRecord .alarmAbort s else s
  | .idle => if old = .allclear then finaliseRecord .ended s else s
  | .prealert | .allclear | .alarmSilenced => s

/-- The drill elapsed time as a data field. -/
def Drill.elapsedField (d : Drill) : List Octet := optional 4 u32 d.elapsed

/-- A DRILL STATE cell is offered to a leg that is UP; a DOWN leg is owed one (R151). -/
def sendDrillState (leg : Fin 4) (s : State) : State :=
  if s.ports[legPort leg].up then offerDrillState leg s
  else s.modDrill fun d => { d with owed := d.owed ||| BitVec.ofNat 4 (2 ^ leg.val) }

/-- The zones that a change of drill state touches: all of them when it leaves or returns to IDLE, since every floor
changes, and otherwise those of EG's claim (R139, R66). -/
def drillZones (old new : DrillState) (before after : ZoneSet) : List (Fin 16) :=
  if old = .idle ∨ new = .idle then allZones else members (before ||| after)

/-- A change of drill state, one event in five steps (R139). -/
def changeDrill (new : DrillState) (cause : Cause) (s : State) : State :=
  let old := s.drill.state
  let t1 := s.modDrill fun d => { d with state := new, entryStamp := s.elapsed, cause := some cause }
  let t2 := setEg t1
  let t3 := reevaluate s (drillZones old new (s.wanted egClaimant) (t2.wanted egClaimant)) t2
  let t4 := updateRecord old new cause t3
  let t5 := notify .drillState 0 (u8 old.code ++ u8 new.code ++ u8 cause.code ++ t4.drill.elapsedField) t4
  (List.finRange 4).foldl (fun t l => sendDrillState l t) t5

/-! ## Starts and the actions of the inputs (R136, R137, R148 to R150) -/

/-- The start day and time of a record: absent while the clock is UNSET (R22, R147). -/
def startTime (s : State) : Option (Day × Nat) :=
  if s.clock.state = .unset then none else some (s.clock.day, s.clock.timeOfDay)

/-- A drill starts in IDLE with values already in range (R136). -/
def startDrill (byKey : Bool) (tag : Option Octet) (prealert target : Nat) (staff : ZoneSet) (autoHold : Bool)
    (s : State) : State :=
  let r : DrillRecord :=
    { byKey, tag, startTime := startTime s, prealert, target, staff, autoHold, evacStart := none, holdReached := none,
      holdCause := none, endReason := none, musterCount := 0, clearedCount := 0, lastClear := none, allCleared := none,
      bellsWithheld := 0, faulted := none }
  let t := s.modDrill fun d =>
    { d with record := some r, muster := [], elapsed := none, drillsStarted := bump d.drillsStarted }
  changeDrill (if prealert = 0 then .evacuate else .prealert) .start t

/-- A rising edge of DRILL KEY (R137). -/
def keyAction (s : State) : State :=
  match s.drill.state with
  | .idle => startDrill true none s.drill.keyPrealert s.drill.keyTarget s.drill.keyStaff s.drill.keyAutoHold s
  | .prealert => changeDrill .evacuate .key s
  | .evacuate => changeDrill .hold .key s
  | .hold => changeDrill .allclear .key s
  | .allclear | .alarm | .alarmSilenced => s

/-- A rising edge of PANEL ALARM: alarm onset (R148). -/
def alarmOnset (s : State) : State :=
  match s.drill.state with
  | .alarm | .alarmSilenced => s
  | .idle | .prealert | .evacuate | .hold | .allclear =>
    changeDrill .alarm .panelOn (s.modDrill fun d => { d with alarmOnsets := bump d.alarmOnsets })

/-- A falling edge of PANEL ALARM: alarm clear (R150). -/
def alarmClear (s : State) : State :=
  match s.drill.state with
  | .alarm | .alarmSilenced => changeDrill .idle .panelOff s
  | .idle | .prealert | .evacuate | .hold | .allclear => s

/-- The silence action of a SILENCE edge: nothing outside ALARM (R149). -/
def silenceKey (s : State) : State :=
  if s.drill.state = .alarm then changeDrill .alarmSilenced .silenceKey s else s

/-- The action of an edge: C0 both ways, C1 and C2 rising; C3 has none (R133). -/
def edgeAction (i : Fin 4) (active : Bool) (s : State) : State :=
  match i.val, active with
  | 0, true => alarmOnset s
  | 0, false => alarmClear s
  | 1, true => keyAction s
  | 2, true => silenceKey s
  | _, _ => s

/-! ## Contact inputs (R132, R133) -/

/-- The debounced level differs from the raw level, which has held for the debounce time (R132). -/
def edgeFalls (i : Fin 4) (s : State) : Bool :=
  let x := s.inputs[i]
  x.level != x.raw && expired s.elapsed x.changeStamp s.drill.debounce

/-- An edge: the debounced level follows the raw level; with the direction's enable on the latch is set and the INPUT
notice sent; then the action follows, whether the enable is on or off (R133). -/
def takeEdge (i : Fin 4) (s : State) : State :=
  let x := s.inputs[i]
  let enabled := if x.raw then x.rise else x.fall
  let t := s.modInput i fun y => { y with level := y.raw, latch := y.latch || enabled }
  let u := if enabled then notify .input i.val (u8 (if x.raw then 0 else 1) ++ u8 (levelCode x.raw)) t else t
  edgeAction i x.raw u

/-- INPUT_EDGE (R133): at a tick, an input whose raw level has held for the debounce time has its edge. -/
def execInputEdge (i : Fin 4) (s : State) : Outcome :=
  .next (s.onEvent (.inputEdge i) <| asEvent fun t => if edgeFalls i t then takeEdge i t else t)

/-! ## The end of a generator's step (R32, R33) -/

/-- EG finishes: IDLE, and in ALLCLEAR the drill ends with TONE-END (R34, R145). -/
def finishEg (s : State) : State :=
  let t := stopGen egGen s
  if t.drill.state = .allclear then changeDrill .idle .toneEnd t else t

/-- A generator finishes; what follows depends on what it serves (R33). -/
def finishGen (g : Fin 5) (s : State) : State :=
  let t := s.modGen g fun x => { x with repeats := .finite 0 }
  if h : g.val < 4 then
    let k : Fin 4 := ⟨g.val, h⟩
    if s.gens[g].use = .chime then finishChime k t else finishBell k t
  else finishEg t

/-- What follows the end of the current step of a pattern: the next step, the next pass, or none, which is the finish
(R32). -/
def Gen.next (p : Pattern) (g : Gen) : Option Gen :=
  if g.stepIndex + 1 < p.steps.length then some (g.enterStep p (g.stepIndex + 1))
  else match g.repeats with
  | .continuous => some (g.enterStep p 0)
  | .finite n =>
    if g.held && n == 1 then some ({ g with repeats := g.passRepeats }.enterStep p 0)
    else if 1 < n then some ({ g with repeats := .finite (n - 1) }.enterStep p 0)
    else none

/-- A RUNNING generator whose step has run out: the next step begins or it finishes. EG on an empty pattern finishes when
its play is FINITE and runs on when it is HELD (R32, R34). -/
def endStep (g : Fin 5) (s : State) : State :=
  let x := s.gens[g]
  if x.running && x.remaining == 0 then
    match s.arb.pattern x.pattern with
    | some p =>
      match x.next p with
      | some y => s.modGen g fun _ => y
      | none => finishGen g s
    | none => if x.repeats = .continuous then s else finishGen g s
  else s

/-- GENERATOR_STEP_END (R32): a RUNNING generator's current step runs out at a tick. -/
def execGeneratorStepEnd (g : Fin 5) (s : State) : Outcome := .next (s.onEvent (.generatorStepEnd g) <| asEvent (endStep g))

/-! ## Timers of the drill (R140, R142, R151) -/

/-- PREALERT_EXPIRY (R140): the pre-alert time since the state entry stamp expires in PREALERT. -/
def execPrealertExpiry (s : State) : Outcome :=
  .next (s.onEvent .prealertExpiry <| asEvent fun t =>
    if t.drill.state = .prealert ∧
        expired t.elapsed t.drill.entryStamp (((t.drill.record.map DrillRecord.prealert).getD 0) * 1000) then
      changeDrill .evacuate .prealertTime t
    else t)

/-- EVACUATION_TONE_LIMIT (R142): in EVACUATE the drill elapsed time is at least the limit. -/
def execEvacuationToneLimit (s : State) : Outcome :=
  .next (s.onEvent .evacuationToneLimit <| asEvent fun t =>
    if t.drill.state = .evacuate ∧ t.drill.toneLimit * 1000 ≤ t.drill.elapsed.getD 0 then
      changeDrill .hold .toneLimit t
    else t)

/-- DRILL_STATE_OWED_OFFER (R151): at a tick, an UP leg with its owed flag set is offered the present state. -/
def execDrillStateOwedOffer (leg : Fin 4) (s : State) : Outcome :=
  .next (s.onEvent (.drillStateOwedOffer leg) fun t =>
    if t.ports[legPort leg].up ∧ t.drill.owed.getLsbD leg.val then offerDrillState leg t else t)

/-! ## ROOM CLEAR (R146) -/

/-- The muster list with a room's first cleared time. -/
def clearRoom (room time : Nat) : List MusterEntry → List MusterEntry
  | [] => []
  | e :: rest => if e.room = room then { e with cleared := some time } :: rest else e :: clearRoom room time rest

/-- The first report of a mustered room: its cleared time, the cleared count, the last clear; in EVACUATE the AUTO-HOLD
condition of R142 is then tested. -/
def firstClear (room : Nat) (s : State) : State :=
  let now := s.drill.elapsed.getD 0
  let t := s.modDrill fun d => { d with muster := clearRoom room now d.muster, record := d.record.map fun r =>
    { r with clearedCount := r.clearedCount + 1, lastClear := some now } }
  match t.drill.state, t.drill.record with
  | .evacuate, some r =>
    if 1 ≤ r.musterCount ∧ r.musterCount ≤ r.clearedCount ∧ r.autoHold then changeDrill .hold .autoHold t else t
  | _, _ => t

/-- ROOM CLEAR by the drill state and the muster list: first report, repeat or stray. -/
def roomClear (room : Nat) (s : State) : State :=
  let stray := s.modDrill fun d => { d with clearsStray := bump d.clearsStray }
  if s.drill.state = .evacuate ∨ s.drill.state = .hold then
    match s.drill.muster.find? fun e => e.room == room with
    | some e =>
      if e.cleared.isSome then s.modDrill fun d => { d with clearsRepeated := bump d.clearsRepeated }
      else firstClear room s
    | none => stray
  else stray

/-- ROOM_CLEAR (R146). -/
def execRoomClear (leg : Fin 4) (room : Fin 32) (s : State) : Outcome :=
  .next (s.onCell (.roomClear leg room) <| asEvent (roomClear (roomIndex leg room).val))

/-! ## The commands of the drill (R136, R143, R144, R149) -/

/-- The kinds of the commands. -/
def kindDrillStart : Octet := 0x1A
def kindDrillHold : Octet := 0x1B
def kindDrillEnd : Octet := 0x1C
def kindAlarmSilence : Octet := 0x1D

/-- The start day and time as one field that may be absent. -/
def startTimeField (t : Option (Day × Nat)) : List Octet := optional 6 (fun x => u16 x.1.toNat ++ u32 x.2) t

/-- DRILL START (R136). -/
def drillStart (tag prealert : Octet) (target : Word16) (staff : ZoneSet) (autoHold : Bool) (s : State) : State :=
  match s.drill.state with
  | .alarm | .alarmSilenced => respond tag kindDrillStart .alarm [] s
  | .prealert | .evacuate | .hold | .allclear => respond tag kindDrillStart .busy [] s
  | .idle =>
    let p := clampNat 0 120 prealert.toNat
    let g := clampNat 1 1800 target.toNat
    let t := startDrill false (some tag) p g staff autoHold s
    respond tag kindDrillStart (.ofClamp (decide (p ≠ prealert.toNat ∨ g ≠ target.toNat)))
      (u8 t.drill.state.code ++ startTimeField (startTime s)) t

/-- DRILL_START (R136). -/
def execDrillStart (tag prealert : Octet) (target : Word16) (staff : ZoneSet) (autoHold : Bool) (s : State) : Outcome :=
  .next (s.onCommand (.drillStart tag prealert target staff autoHold) <| asEvent (drillStart tag prealert target staff autoHold))

/-- The data of DRILL HOLD and DRILL END: drill elapsed time, muster count, cleared count (R143, R144). The drill elapsed time
stands behind its presence octet in both answers, though it is never absent in that of DRILL HOLD (DESIGN CHOICE, assumption
10). Both counts are of the record, which stands wherever the two commands answer with them. -/
def Drill.counts (d : Drill) : List Octet :=
  d.elapsedField ++ u16 ((d.record.map DrillRecord.musterCount).getD 0)
    ++ u16 ((d.record.map DrillRecord.clearedCount).getD 0)

/-- DRILL HOLD (R143). -/
def drillHold (tag : Octet) (s : State) : State :=
  match s.drill.state with
  | .evacuate =>
    let t := changeDrill .hold .holdCommand s
    respond tag kindDrillHold .done t.drill.counts t
  | .hold => respond tag kindDrillHold .done s.drill.counts s
  | .alarm | .alarmSilenced => respond tag kindDrillHold .alarm [] s
  | .idle | .prealert | .allclear => respond tag kindDrillHold .state [] s

/-- DRILL_HOLD (R143). -/
def execDrillHold (tag : Octet) (s : State) : Outcome := .next (s.onCommand (.drillHold tag) <| asEvent (drillHold tag))

/-- DRILL END (R144). -/
def drillEnd (tag : Octet) (s : State) : State :=
  match s.drill.state with
  | .prealert | .evacuate | .hold =>
    let t := changeDrill .allclear .endCommand s
    respond tag kindDrillEnd .done t.drill.counts t
  | .allclear => respond tag kindDrillEnd .done s.drill.counts s
  | .alarm | .alarmSilenced => respond tag kindDrillEnd .alarm [] s
  | .idle => respond tag kindDrillEnd .state [] s

/-- DRILL_END (R144). -/
def execDrillEnd (tag : Octet) (s : State) : Outcome := .next (s.onCommand (.drillEnd tag) <| asEvent (drillEnd tag))

/-- ALARM SILENCE (R149). -/
def alarmSilence (tag : Octet) (s : State) : State :=
  if s.drill.state = .alarm then
    respond tag kindAlarmSilence .done [] (changeDrill .alarmSilenced .silenceCommand s)
  else respond tag kindAlarmSilence .state [] s

/-- ALARM_SILENCE (R149). -/
def execAlarmSilence (tag : Octet) (s : State) : Outcome := .next (s.onCommand (.alarmSilence tag) <| asEvent (alarmSilence tag))

end Sys2Proof.Machine
end

