-- ==== Sys2Proof/Machine/Schedule.lean ====
section
/-!
DEFINITION. The Schedule Engine: firing, the swap of the banks, steps of campus time, the holiday list, the commands that
write and commit the staged bank, and BELL NOW (chapter 3).
-/
namespace Sys2Proof.Machine

/-! ## Banks (R43, R44) -/

def Sched.activeBank (x : Sched) : Bank := if x.aActive then x.bankA else x.bankB
def Sched.stagedBank (x : Sched) : Bank := if x.aActive then x.bankB else x.bankA
def Sched.setActive (x : Sched) (b : Bank) : Sched := if x.aActive then { x with bankA := b } else { x with bankB := b }
def Sched.setStaged (x : Sched) (b : Bank) : Sched := if x.aActive then { x with bankB := b } else { x with bankA := b }

/-- The non-empty slots of a bank in index order. -/
def Bank.entries (b : Bank) : List (Fin 128 × Entry) :=
  (List.finRange 128).filterMap fun i => b[i].map fun e => (i, e)

/-- A bank with a change made to each entry. -/
def Bank.mapEntries (b : Bank) (f : Entry → Entry) : Bank := Vector.ofFn fun i => b[i].map f

/-- The index of the first non-empty slot whose second satisfies a test, or 128 (R44). -/
def Bank.firstWhere (b : Bank) (test : Nat → Bool) : Nat :=
  match (Bank.entries b).find? fun x => test x.2.second with
  | some x => x.1.val
  | none => 128

/-- The cursor is positioned at the first entry above a second (R44). -/
def Sched.positionAbove (second : Nat) (x : Sched) : Sched :=
  { x with cursor := Bank.firstWhere x.activeBank fun n => decide (second < n) }

/-- The cursor is positioned at the first entry at or above a second (R44). -/
def Sched.positionAtOrAbove (second : Nat) (x : Sched) : Sched :=
  { x with cursor := Bank.firstWhere x.activeBank fun n => decide (second ≤ n) }

/-- The cursor day and weekday take the values of a clock signal (R44). -/
def Sched.noteDay (day : Day) (weekday : Nat) (x : Sched) : Sched :=
  { x with cursorDay := day, cursorWeekday := weekday }

/-- The current second of a time of day (R9). -/
def secondOf (t : Nat) : Nat := t / 1000

/-! ## Firing (R55 to R57) -/

/-- An entry is passed: its day mask excludes the weekday, or it skips a listed holiday, or it carries the day's stamp. -/
def Entry.passed (e : Entry) (day : Day) (weekday : Nat) (holidays : List Day) : Bool :=
  !e.days.getLsbD weekday || (e.holidaySkip && holidays.contains day) || e.fired == some day

/-- The entry in an ACTIVE slot takes a fired-day stamp. -/
def stampSlot (i : Fin 128) (day : Day) (s : State) : State :=
  s.modSched fun x => x.setActive (x.activeBank.set i (x.activeBank[i].map fun e => { e with fired := some day }))

/-- The last-firing record is replaced (R57). -/
def noteFiring (i : Fin 128) (day : Day) (second : Nat) (catchUp : Bool) (o : FireOutcome) (s : State) : State :=
  s.modSched fun x => { x with lastFiring := some ⟨i.val, day, second, catchUp, o⟩ }

/-- A firing is withheld while the drill state is not IDLE or BELL INHIBIT is active (R56). -/
def State.withholdsBells (s : State) : Bool := decide (s.drill.state ≠ .idle) || s.inputs[(3 : Fin 4)].level

/-- A withheld firing: counted, and counted in the record of a drill in its course (R56). -/
def countWithheld (s : State) : State :=
  let t := s.modSched fun x => { x with withheld := bump x.withheld }
  if s.drill.state.inDrill then
    t.modDrill fun d => { d with record := d.record.map fun r => { r with bellsWithheld := bump r.bellsWithheld } }
  else t

/-- An entry fires: it is stamped, and it is withheld, or has no pattern, or sends a bell request (R55 to R57). -/
def fireEntry (i : Fin 128) (e : Entry) (day : Day) (second : Nat) (catchUp : Bool) (s : State) : State :=
  let t := stampSlot i day s
  if t.withholdsBells then noteFiring i day second catchUp .withheld (countWithheld t)
  else if (t.arb.pattern e.pattern).isNone then
    noteFiring i day second catchUp .noPattern (t.modSched fun x => { x with noPattern := bump x.noPattern })
  else
    let (u, answer) := bellRequest e.zones e.pattern e.priority (.slot i.val)
      (t.modSched fun x => { x with fired := bump x.fired })
    noteFiring i day second catchUp answer.outcome u

/-- The entries of the ACTIVE bank are examined in order from the cursor, up to the first whose second is greater than the
boundary's, where the cursor is left (R55). -/
def examine (day : Day) (weekday second : Nat) : List (Fin 128) → State → State
  | [], s => s.modSched fun x => { x with cursor := 128 }
  | i :: rest, s =>
    match s.sched.activeBank[i] with
    | none => examine day weekday second rest s
    | some e =>
      if second < e.second then s.modSched fun x => { x with cursor := i.val }
      else if e.passed day weekday s.sched.holidays then examine day weekday second rest s
      else examine day weekday second rest (fireEntry i e day second false s)

/-! ## The swap (R49) -/

/-- The kinds of the commands of this chapter. -/
def kindBellNow : Octet := 0x0C
def kindScheduleWrite : Octet := 0x10
def kindScheduleCommit : Octet := 0x11
def kindHolidayWrite : Octet := 0x12

/-- The banks exchange roles: the entries of the new ACTIVE bank at or below the second take the day's stamp and the others
none, every stamp of the new STAGED bank becomes absent, the cursor goes to the first entry above the second. -/
def Sched.swap (day : Day) (second : Nat) (x : Sched) : Sched :=
  let fresh := Bank.mapEntries x.stagedBank fun e => { e with fired := if e.second ≤ second then some day else none }
  let old := Bank.mapEntries x.activeBank fun e => { e with fired := none }
  (Sched.setStaged (Sched.setActive { x with aActive := !x.aActive, commitPending := false } fresh) old).positionAbove second

/-- The banks exchanged, and the deferred-response slot emptied (R49, R177). -/
def exchangeBanks (day : Day) (second : Nat) (s : State) : State :=
  (s.modSched (Sched.swap day second)).modMgmt fun m => { m with deferred := none }

/-- The data of the response and of the notice of a swap: the number of entries of the new ACTIVE bank, D and s (R49). -/
def swapData (day : Day) (second : Nat) (s : State) : List Octet :=
  u16 (Bank.entries s.sched.activeBank).length ++ u16 day.toNat ++ u32 second

/-- The swap at a second boundary, with its response to the commit of the given tag and then its notice, the order in which
R49 lists them (assumption 33). -/
def swapBanks (day : Day) (second : Nat) (tag : Octet) (s : State) : State :=
  let t := exchangeBanks day second s
  notify .scheduleSwap 0 (swapData day second t) (respond tag kindScheduleCommit .done (swapData day second t) t)

/-- The swap within a commit made in UNSET: the notice is queued in the course of the command, and the response last (R178;
assumption 33). -/
def swapAtOnce (day : Day) (second : Nat) (tag : Octet) (s : State) : State :=
  let t := exchangeBanks day second s
  respond tag kindScheduleCommit .done (swapData day second t) (notify .scheduleSwap 0 (swapData day second t) t)

/-! ## The signals of the clock (R53, R54, R58 to R60) -/

/-- The set signal: the cursor above the new second, nothing fired (R54). -/
def schedSet (timeOfDay : Nat) (day : Day) (weekday : Nat) (s : State) : State :=
  s.modSched fun x => (x.positionAbove (secondOf timeOfDay)).noteDay day weekday

/-- A listed day is in the past of the new day count (R53). -/
def pastDay (today h : Day) : Bool := decide (32768 ≤ (h - today).toNat)

/-- The midnight signal: the cursor becomes 0 and the holiday list is pruned (R53, R54). -/
def schedMidnight (day : Day) (weekday : Nat) (s : State) : State :=
  s.modSched fun x => { (x.noteDay day weekday) with
    cursor := 0, holidays := x.holidays.filter fun h => !pastDay day h }

/-- The second-boundary signal: the entries due are examined, and then a pending commit swaps the banks (R49, R55). -/
def schedSecond (second : Nat) (day : Day) (weekday : Nat) (s : State) : State :=
  if s.clock.state = .unset then s
  else
    let t := s.modSched (Sched.noteDay day weekday)
    let u := examine day weekday second ((List.finRange 128).drop t.sched.cursor) t
    if u.sched.commitPending then swapBanks day second (u.mgmt.deferred.getD 0) u else u

/-- A due entry is stamped without ringing and counted as skipped (R59). -/
def skipEntry (i : Fin 128) (day : Day) (s : State) : State :=
  (stampSlot i day s).modSched fun x => { x with skipped := bump x.skipped }

/-- The entries that a forward step passes over and that are due, in slot order (R59, R60). -/
def passedOver (low : Option Nat) (second : Nat) (day : Day) (weekday : Nat) (x : Sched) : List (Fin 128 × Entry) :=
  (Bank.entries x.activeBank).filter fun p =>
    decide (p.2.second < second) && low.all (fun n => decide (n < p.2.second)) && !p.2.passed day weekday x.holidays

/-- The catch-up candidate: the due entry in the highest slot with its catch-up flag set and its second within the window
(R59). -/
def candidate (window second : Nat) (due : List (Fin 128 × Entry)) : Option (Fin 128 × Entry) :=
  due.reverse.find? fun p => p.2.catchUp && decide (second ≤ p.2.second + window)

/-- A forward step on the new day: one catch-up at most, the rest skipped, the cursor at the first entry at or above the
new second (R59). -/
def stepForward (low : Option Nat) (second : Nat) (day : Day) (weekday : Nat) (s : State) : State :=
  let due := passedOver low second day weekday s.sched
  let c := candidate s.sched.catchUpWindow second due
  let t := match c with
    | some p => fireEntry p.1 p.2 day second true s
    | none => s
  let u := (due.filter fun p => decide (some p.1 ≠ c.map (·.1))).foldl (fun v p => skipEntry p.1 day v) t
  u.modSched fun x => (x.positionAtOrAbove second).noteDay day weekday

/-- The old day's leftovers of a step across midnight are counted as skipped, their stamps left (R60). -/
def countLeftovers (oldSecond : Nat) (oldDay : Day) (s : State) : State :=
  let x := s.sched
  let left := (Bank.entries x.activeBank).filter fun p =>
    decide (oldSecond < p.2.second) && !p.2.passed oldDay x.cursorWeekday x.holidays
  left.foldl (fun v _ => v.modSched fun y => { y with skipped := bump y.skipped }) s

/-- The step signal: the step is classed by day difference and second, and the cursor repositioned (R58 to R60). -/
def schedStep (oldTime : Nat) (oldDay : Day) (newTime : Nat) (newDay : Day) (newWeekday : Nat) (s : State) : State :=
  let d := (newDay - oldDay).toInt
  let so := secondOf oldTime
  let sn := secondOf newTime
  if d = 0 ∧ so = sn then s
  else if d < 0 ∨ (d = 0 ∧ sn < so) then s.modSched fun x => (x.positionAbove sn).noteDay newDay newWeekday
  else if d = 0 then stepForward (some so) sn newDay newWeekday s
  else stepForward none sn newDay newWeekday (countLeftovers so oldDay s)

/-! ## SCHEDULE WRITE (R45) -/

/-- Every answer of SCHEDULE WRITE, that of a refused one too, carries the slot index: R45 says so of 'the response', while
R179 leaves a refused command the data that its table names (DESIGN CHOICE, assumption 34). -/
def answerScheduleWrite (tag slot : Octet) (r : Result) (s : State) : State :=
  respond tag kindScheduleWrite r [slot] s

/-- The slot of the STAGED bank takes new content. -/
def writeStaged (slot : Octet) (e : Option Entry) (s : State) : State :=
  if h : slot.toNat < 128 then s.modSched fun x => x.setStaged (x.stagedBank.set slot.toNat e) else s

/-- SCHEDULE WRITE ENTRY, checked in the order of R45's table. -/
def scheduleWriteEntry (tag slot : Octet) (second : Word32) (days : DaySet) (zones : ZoneSet) (pattern prio : Octet)
    (holidaySkip catchUp : Bool) (s : State) : State :=
  if s.sched.commitPending then answerScheduleWrite tag slot .busy s
  else if 127 < slot.toNat ∨ 86399 < second.toNat ∨ days = 0 ∨ zones = 0 ∨ 15 < pattern.toNat then
    answerScheduleWrite tag slot .field s
  else
    let p := clampNat 1 13 prio.toNat
    answerScheduleWrite tag slot (.ofClamp (decide (p ≠ prio.toNat)))
      (writeStaged slot (some { second := second.toNat, days, zones, pattern := pattern.toNat, priority := p, holidaySkip,
                                catchUp, fired := none }) s)

/-- SCHEDULE_WRITE_ENTRY (R45). -/
def execScheduleWriteEntry (tag slot : Octet) (second : Word32) (days : DaySet) (zones : ZoneSet) (pattern prio : Octet)
    (holidaySkip catchUp : Bool) (s : State) : Outcome :=
  .next (s.onCommand (.scheduleWriteEntry tag slot second days zones pattern prio holidaySkip catchUp)
    (scheduleWriteEntry tag slot second days zones pattern prio holidaySkip catchUp))

/-- SCHEDULE WRITE EMPTY (R45). -/
def scheduleWriteEmpty (tag slot : Octet) (s : State) : State :=
  if s.sched.commitPending then answerScheduleWrite tag slot .busy s
  else if 127 < slot.toNat then answerScheduleWrite tag slot .field s
  else answerScheduleWrite tag slot .done (writeStaged slot none s)

/-- SCHEDULE_WRITE_EMPTY (R45). -/
def execScheduleWriteEmpty (tag slot : Octet) (s : State) : Outcome :=
  .next (s.onCommand (.scheduleWriteEmpty tag slot) (scheduleWriteEmpty tag slot))

/-- SCHEDULE_WRITE_UNKNOWN_OPERATION (R45): BUSY while a commit is PENDING, else FIELD; no slot changes. -/
def execScheduleWriteUnknownOperation (tag slot op : Octet) (s : State) : Outcome :=
  .next (s.onCommand (.scheduleWriteUnknownOperation tag slot op) fun t =>
    answerScheduleWrite tag slot (if t.sched.commitPending then .busy else .field) t)

/-! ## SCHEDULE COMMIT (R47) -/

/-- ORDER pass: the first slot whose second is below that of the non-empty slot before it. -/
def orderFault : List (Fin 128 × Entry) → Option (Fin 128)
  | a :: b :: rest => if b.2.second < a.2.second then some b.1 else orderFault (b :: rest)
  | _ => none

/-- NO-PATTERN pass: the lowest slot whose pattern is empty. -/
def patternFault (a : Arbiter) (l : List (Fin 128 × Entry)) : Option (Fin 128) :=
  (l.find? fun p => (a.pattern p.2.pattern).isNone).map (·.1)

/-- Two entries collide: the same second, a shared weekday and a shared zone. -/
def Entry.collides (a b : Entry) : Bool :=
  a.second == b.second && decide (a.days &&& b.days ≠ 0) && decide (a.zones &&& b.zones ≠ 0)

/-- CONFLICT pass: the pair with the lowest j, and for it the lowest i. `seen` holds the entries before, in order. -/
def conflictFault (seen : List (Fin 128 × Entry)) : List (Fin 128 × Entry) → Option (Fin 128 × Fin 128)
  | [] => none
  | b :: rest =>
    match seen.find? fun a => a.2.collides b.2 with
    | some a => some (a.1, b.1)
    | none => conflictFault (seen ++ [b]) rest

/-- The refusal of a commit that fails a pass of its validation, with its data. -/
def commitFault (s : State) : Option (Result × List Octet) :=
  let l := Bank.entries s.sched.stagedBank
  match orderFault l, patternFault s.arb l, conflictFault [] l with
  | some i, _, _ => some (.order, u8 i.val)
  | none, some i, _ => some (.noPattern, u8 i.val)
  | none, none, some (i, j) => some (.conflict, u8 i.val ++ u8 j.val)
  | none, none, none => none

/-- SCHEDULE COMMIT (R47): refused, or swapped at once while the clock is UNSET, or PENDING with its tag kept. -/
def scheduleCommit (tag : Octet) (s : State) : State :=
  if s.sched.commitPending then respond tag kindScheduleCommit .busy [] s
  else match commitFault s with
  | some (r, data) => respond tag kindScheduleCommit r data s
  | none =>
    if s.clock.state = .unset then swapAtOnce s.clock.day (secondOf s.clock.timeOfDay) tag s
    else (s.modSched fun x => { x with commitPending := true }).modMgmt fun m => { m with deferred := some tag }

/-- SCHEDULE_COMMIT (R47). -/
def execScheduleCommit (tag : Octet) (s : State) : Outcome :=
  .next (s.onCommand (.scheduleCommit tag) (scheduleCommit tag))

/-! ## The holiday list (R51, R52) -/

/-- The list holds at most 32 days. -/
def holidayCapacity : Nat := 32

/-- A day inserted at its place in ascending order. -/
def insertDay (d : Day) : List Day → List Day
  | [] => [d]
  | x :: rest => if d.toNat ≤ x.toNat then d :: x :: rest else x :: insertDay d rest

/-- Every HOLIDAY WRITE response carries the operation and the number of days after it. -/
def answerHoliday (tag : Octet) (op : Nat) (r : Result) (s : State) : State :=
  respond tag kindHolidayWrite r (u8 op ++ u16 s.sched.holidays.length) s

/-- HOLIDAY WRITE ADD (R52). -/
def holidayAdd (tag : Octet) (d : Day) (s : State) : State :=
  if s.sched.holidays.contains d then answerHoliday tag 0 .done s
  else if holidayCapacity ≤ s.sched.holidays.length then answerHoliday tag 0 .full s
  else answerHoliday tag 0 .done (s.modSched fun x => { x with holidays := insertDay d x.holidays })

/-- HOLIDAY_WRITE_ADD (R52). -/
def execHolidayWriteAdd (tag : Octet) (d : Day) (s : State) : Outcome :=
  .next (s.onCommand (.holidayWriteAdd tag d) (holidayAdd tag d))

/-- HOLIDAY_WRITE_REMOVE (R52). -/
def execHolidayWriteRemove (tag : Octet) (d : Day) (s : State) : Outcome :=
  .next (s.onCommand (.holidayWriteRemove tag d) fun t =>
    answerHoliday tag 1 .done (t.modSched fun x => { x with holidays := x.holidays.filter fun h => h != d }))

/-- HOLIDAY_WRITE_CLEAR (R52). -/
def execHolidayWriteClear (tag : Octet) (s : State) : Outcome :=
  .next (s.onCommand (.holidayWriteClear tag) fun t =>
    answerHoliday tag 2 .done (t.modSched fun x => { x with holidays := [] }))

/-- HOLIDAY_WRITE_UNKNOWN_OPERATION (R52): FIELD, nothing changes. -/
def execHolidayWriteUnknownOperation (tag op : Octet) (s : State) : Outcome :=
  .next (s.onCommand (.holidayWriteUnknownOperation tag op) (answerHoliday tag op.toNat .field))

/-! ## BELL NOW (R62) -/

/-- The data of an arbiter's answer: its outcome, then the generator, or the position and the priority used (assumption
10). -/
def BellAnswer.data (priority : Nat) (a : BellAnswer) : List Octet :=
  u8 a.outcome.code ++ match a with
  | .started g => u8 g.val
  | .merged g => u8 g.val
  | .queued n => u8 n ++ u8 priority
  | .queueMerged n => u8 n ++ u8 priority
  | .dropped => u8 priority

/-- The result of an accepted BELL NOW. -/
def BellAnswer.result (clamped : Bool) : BellAnswer → Result
  | .started _ => .ofClamp clamped
  | .merged _ => .ofClamp clamped
  | .queued _ => .queued
  | .queueMerged _ => .queued
  | .dropped => .full

/-- BELL NOW, checked in the order of R62's table. -/
def bellNow (tag : Octet) (zones : ZoneSet) (pattern prio : Octet) (s : State) : State :=
  if 15 < pattern.toNat ∨ zones = 0 then respond tag kindBellNow .field [] s
  else if s.drill.state ≠ .idle then respond tag kindBellNow .alarm [] s
  else if (s.arb.pattern pattern.toNat).isNone then respond tag kindBellNow .noPattern [] s
  else
    let p := clampNat 1 13 prio.toNat
    let (t, a) := bellRequest zones pattern.toNat p .manual s
    respond tag kindBellNow (a.result (decide (p ≠ prio.toNat))) (a.data p) t

/-- BELL_NOW (R62). -/
def execBellNow (tag : Octet) (zones : ZoneSet) (pattern prio : Octet) (s : State) : Outcome :=
  .next (s.onCommand (.bellNow tag zones pattern prio) <| asEvent (bellNow tag zones pattern prio))

end Sys2Proof.Machine
end

