-- ==== Sys2Proof/Machine/Roster.lean ====
section
/-!
DEFINITION. The Room Roster: ROSTER WRITE, the poll cycle, replies and misses, broadcasts (chapter 7).
-/
namespace Sys2Proof.Machine

/-! ## ROSTER WRITE (R117) -/

def kindRosterWrite : Octet := 0x18

/-- The expected set of a leg: the rooms that are not ABSENT (R116). -/
def State.expectedSet (s : State) (leg : Fin 4) : RoomSet :=
  setOf fun r => decide (s.rooms[roomIndex leg r].state ≠ .absent)

/-- The leg's poll is voided if it is for this room, whatever its phase. -/
def LegPoll.voidRoom (room : Fin 32) (l : LegPoll) : LegPoll :=
  { l with poll := l.poll.map fun p => if p.room = room then { p with voided := true } else p }

/-- One room of the leg by its old flag and its new one. -/
def setExpected (leg : Fin 4) (expected : RoomSet) (room : Fin 32) (s : State) : State :=
  let i := roomIndex leg room
  match decide (s.rooms[i].state ≠ .absent), expected.getLsbD room.val with
  | false, true => s.modRoom i fun _ => { Room.absent with state := .unpolled }
  | true, false => (s.modRoom i fun _ => Room.absent).modPoll leg (LegPoll.voidRoom room)
  | _, _ => s

/-- An accepted ROSTER WRITE: the leg's new expected set. -/
def setRoster (leg : Fin 4) (expected : RoomSet) (s : State) : State :=
  (List.finRange 32).foldl (fun t r => setExpected leg expected r t) s

/-- ROSTER WRITE with a set operation (R117). -/
def rosterWrite (tag leg : Octet) (op : Nat) (rooms : RoomSet) (s : State) : State :=
  if h : leg.toNat < 4 then
    let l : Fin 4 := ⟨leg.toNat, h⟩
    match setOp op (s.expectedSet l) rooms with
    | some new =>
      let t := setRoster l new s
      respond tag kindRosterWrite .done (u32 (t.expectedSet l).toNat ++ u16 (card (t.expectedSet l))) t
    | none => respond tag kindRosterWrite .field [] s
  else respond tag kindRosterWrite .field [] s

/-- ROSTER_WRITE_WRITE (R117). -/
def execRosterWriteWrite (tag leg : Octet) (rooms : RoomSet) (s : State) : Outcome :=
  .next (s.onCommand (.rosterWriteWrite tag leg rooms) (rosterWrite tag leg 0 rooms))

/-- ROSTER_WRITE_SET (R117). -/
def execRosterWriteSet (tag leg : Octet) (rooms : RoomSet) (s : State) : Outcome :=
  .next (s.onCommand (.rosterWriteSet tag leg rooms) (rosterWrite tag leg 1 rooms))

/-- ROSTER_WRITE_CLEAR (R117). -/
def execRosterWriteClear (tag leg : Octet) (rooms : RoomSet) (s : State) : Outcome :=
  .next (s.onCommand (.rosterWriteClear tag leg rooms) (rosterWrite tag leg 2 rooms))

/-- ROSTER_WRITE_UNKNOWN_OPERATION (R117): FIELD, nothing changes. -/
def execRosterWriteUnknownOperation (tag leg op : Octet) (rooms : RoomSet) (s : State) : Outcome :=
  .next (s.onCommand (.rosterWriteUnknownOperation tag leg op rooms) (respond tag kindRosterWrite .field []))

/-! ## Poll points (R119) -/

/-- The first expected room after the last polled one, counting upward and wrapping; from room 0 where there is none. -/
def nextRoom (last : Option (Fin 32)) (expected : RoomSet) : Option (Fin 32) :=
  let start := (last.map fun r => r.val + 1).getD 0
  ((List.finRange 32).map fun k => Fin.ofNat 32 (start + k.val)).find? fun r => expected.getLsbD r.val

/-- Polling is suspended in PREALERT, EVACUATE and ALARM. -/
def DrillState.suspendsPolls : DrillState → Bool
  | .prealert | .evacuate | .alarm => true
  | .idle | .hold | .allclear | .alarmSilenced => false

/-- The conditions for offering a poll, apart from an expected room. -/
def mayPoll (leg : Fin 4) (s : State) : Bool :=
  s.ports[legPort leg].up && s.polls[leg].poll.isNone && decide (s.clock.state ≠ .unset) && !s.drill.state.suspendsPolls

/-- A CLOCK POLL is offered; accepted, the leg's poll is QUEUED for that room, refused it is only counted. -/
def offerPoll (leg : Fin 4) (room : Fin 32) (s : State) : State :=
  let (t, ok) := offer (legPort leg)
    { cell := mkCell kindClockPoll (roomAddr leg room) 0 [], urgent := false, maker := .roster } s
  if ok then t.modPoll leg fun l => { l with poll := some ⟨room, none, false⟩ }
  else t.modPoll leg fun l => { l with refused := bump l.refused }

/-- The owed broadcast is offered while the leg is UP and the clock is not UNSET (R126). -/
def offerOwedBroadcast (leg : Fin 4) (s : State) : State :=
  if s.polls[leg].owed ∧ s.ports[legPort leg].up ∧ s.clock.state ≠ .unset then offerBroadcast leg s else s

/-- A poll point: the poll stamp is renewed, the owed broadcast is offered, then a poll. -/
def pollPoint (leg : Fin 4) (s : State) : State :=
  let t := offerOwedBroadcast leg (s.modPoll leg fun l => { l with stamp := s.elapsed })
  if mayPoll leg t then
    match nextRoom t.polls[leg].lastPolled (t.expectedSet leg) with
    | some r => offerPoll leg r t
    | none => t
  else t

/-- POLL_POINT (R119): a tick at which the leg's poll interval has elapsed since its poll stamp. -/
def execPollPoint (leg : Fin 4) (s : State) : Outcome :=
  .next (s.onEvent (.pollPoint leg) fun t =>
    if expired t.elapsed t.polls[leg].stamp t.roster.pollInterval then pollPoint leg t else t)

/-! ## Replies (R121 to R123) -/

/-- Milliseconds in a day. -/
def dayMs : Nat := 86400000

/-- A difference of times of day taken into −43,200,000 to 43,199,999 (R121). -/
def timeDifference (a b : Nat) : Int :=
  let r := ((a : Int) - b) % 86400000
  if 43200000 ≤ r then r - 86400000 else r

/-- The error of a reply: Troom against the departure time plus half the round trip, saturated (R121). -/
def replyError (now : Word32) (d : Departure) (troom : Nat) : Int :=
  clampInt (-32767) 32767 (timeDifference troom (d.time + since now d.stamp / 2))

/-- A CLOCK SET offered to one room (R122): accepted, it counts in the room's corrections and the leg's sets queued. -/
def offerCorrection (leg : Fin 4) (room : Fin 32) (s : State) : State :=
  let (t, ok) := offer (legPort leg)
    { cell := mkCell kindClockSet (roomAddr leg room) 0 [], urgent := false, maker := .roster } s
  if ok then
    (t.modRoom (roomIndex leg room) fun x => { x with corrections := bump x.corrections }).modPoll leg fun l =>
      { l with setsQueued := bump l.setsQueued }
  else t.modPoll leg fun l => { l with setsRefused := bump l.setsRefused }

/-- A reply taken updates the room's record, corrects a drifting room, and sends ROOM-BACK after STALE (R122). -/
def takeReply (leg : Fin 4) (room : Fin 32) (e : Int) (s : State) : State :=
  let i := roomIndex leg room
  let old := s.rooms[i]
  let within := decide (e.natAbs ≤ s.roster.tolerance)
  let t := (s.modPoll leg fun l => { l with poll := none, taken := bump l.taken }).modRoom i fun x =>
    { x with lastError := some e, lastReply := some s.elapsed, missed := 0,
             state := if within then .tracking else .drifting }
  let u := if within then t else offerCorrection leg room t
  if old.state = .stale then notify .roomBack i.val (i32 e ++ sinceField s.elapsed old.lastReply) u else u

/-- A CLOCK REPLY is taken, voided or late (R121, R123). -/
def clockReply (leg : Fin 4) (room : Fin 32) (troom : Word32) (s : State) : State :=
  let late := s.modPoll leg fun l => { l with late := bump l.late }
  match s.polls[leg].poll with
  | some ⟨r, some d, voided⟩ =>
    if r ≠ room then late
    else if voided then s.modPoll leg fun l => { l with voided := bump l.voided }
    else if dayMs ≤ troom.toNat then late
    else takeReply leg room (replyError s.elapsed d troom.toNat) s
  | _ => late

/-- CLOCK_REPLY (R121). -/
def execClockReply (leg : Fin 4) (room : Fin 32) (troom : Word32) (s : State) : Outcome :=
  .next (s.onCell (.clockReply leg room troom) (clockReply leg room troom))

/-! ## Misses (R124) -/

/-- A miss of a room: the count rises to 3 at most, and the room becomes STALE with its notice when it reaches 3. -/
def missRoom (leg : Fin 4) (room : Fin 32) (s : State) : State :=
  let i := roomIndex leg room
  let old := s.rooms[i]
  let t := (s.modPoll leg fun l => { l with misses := bump l.misses }).modRoom i fun x =>
    { x with missed := min 3 (x.missed + 1), state := if 3 ≤ x.missed + 1 then .stale else x.state }
  if 3 ≤ old.missed + 1 ∧ old.state ≠ .stale then
    notify .roomStale i.val (optional 4 i32 old.lastError ++ sinceField s.elapsed old.lastReply) t
  else t

/-- An outstanding poll whose reply timeout has expired ends: with a miss, or without one where it is voided. -/
def replyTimeout (leg : Fin 4) (s : State) : State :=
  match s.polls[leg].poll with
  | some ⟨room, some d, voided⟩ =>
    if expired s.elapsed d.stamp s.roster.replyTimeout then
      let t := s.modPoll leg fun l => { l with poll := none }
      if voided then t else missRoom leg room t
    else s
  | _ => s

/-- REPLY_TIMEOUT (R124): at a tick, the polls that time out are resolved in ascending leg number. -/
def execReplyTimeout (s : State) : Outcome :=
  .next (s.onEvent .replyTimeout fun t => (List.finRange 4).foldl (fun u l => replyTimeout l u) t)

/-! ## Steps, clock states, legs (R125 to R128) -/

/-- An outstanding poll is voided (R125). -/
def LegPoll.voidOutstanding (l : LegPoll) : LegPoll :=
  { l with poll := l.poll.map fun p => if p.departed.isSome then { p with voided := true } else p }

/-- A leg-broadcast CLOCK SET offered to a leg that is UP. -/
def broadcastIfUp (leg : Fin 4) (s : State) : State :=
  if s.ports[legPort leg].up then offerBroadcast leg s else s

/-- The step signal: outstanding polls are voided and every UP leg is offered the broadcast (R125). -/
def rosterStep (s : State) : State :=
  (List.finRange 4).foldl (fun t l => broadcastIfUp l (t.modPoll l LegPoll.voidOutstanding)) s

/-- The clock state is compared with the noted one, and then noted; a change to LOCKED or HOLDOVER is broadcast (R126). -/
def clockStateBroadcast (s : State) : State :=
  let t := s.modRoster fun r => { r with noted := s.clock.state }
  if s.clock.state ≠ s.roster.noted ∧ s.clock.state ≠ .unset then
    (List.finRange 4).foldl (fun u l => broadcastIfUp l u) t
  else t

/-- CLOCK_STATE_BROADCAST (R126). -/
def execClockStateBroadcast (s : State) : Outcome := .next (s.onEvent .clockStateBroadcast clockStateBroadcast)

/-- The command reset resolves a poll: OUTSTANDING ends without a miss, QUEUED is voided (R128). -/
def LegPoll.commandReset (l : LegPoll) : LegPoll :=
  match l.poll with
  | some p => if p.departed.isSome then { l with poll := none } else { l with poll := some { p with voided := true } }
  | none => l

end Sys2Proof.Machine
end

