-- ==== Sys2Proof/Machine/Power.lean ====
section
/-!
DEFINITION. Zones and their lines: ZONE MODE, ZONE AUDIO, amplifier rest and wake (4.1, 4.5), and the Line Supervisor
(chapter 6).
-/
namespace Sys2Proof.Machine

def kindZoneAudio : Octet := 0x14
def kindZoneMode : Octet := 0x15
def kindSupervise : Octet := 0x16

/-! ## ZONE MODE and ZONE AUDIO (R67, R68) -/

/-- A zone whose mode changed is re-evaluated; one that entered DAY or QUIET while STANDBY is woken (R67, R88). -/
def reevalMode (before : State) (z : Fin 16) (s : State) : State :=
  let t := reevalZone before.zones[z].isIdle z s
  let k := t.zones[z]
  if k.power = .standby ∧ (k.mode = .day ∨ k.mode = .quiet) then wakeZone z t else t

/-- The zones whose owner differs between two states. -/
def ownersChanged (a b : State) : ZoneSet := setOf fun z => decide (a.zones[z].owner ≠ b.zones[z].owner)

/-- An accepted ZONE MODE (R67). -/
def setMode (m : Mode) (zones : ZoneSet) (s : State) : State :=
  let changed := (members zones).filter fun z => decide (s.zones[z].mode ≠ m)
  let t := changed.foldl (fun u z => u.modZone z fun k => { k with mode := m }) s
  reexamine (changed.foldl (fun u z => reevalMode s z u) (noteJoined s t))

/-- ZONE MODE (R67). -/
def zoneMode (tag : Octet) (zones : ZoneSet) (mode : Octet) (s : State) : State :=
  match Mode.ofCode mode.toNat with
  | none => respond tag kindZoneMode .field [] s
  | some m =>
    let t := setMode m zones s
    respond tag kindZoneMode .done (u16 (ownersChanged s t).toNat) t

/-- ZONE_MODE (R67). -/
def execZoneMode (tag : Octet) (zones : ZoneSet) (mode : Octet) (s : State) : Outcome :=
  .next (s.onCommand (.zoneMode tag zones mode) <| asEvent (zoneMode tag zones mode))

/-- The four settings of ZONE AUDIO in one zone. -/
def Zone.setAudio (ga gb : Nat) (background : Option (Fin 8)) (depth : Nat) (k : Zone) : Zone :=
  { k with ga, gb, background, depth }

/-- ZONE AUDIO (R68). -/
def zoneAudio (tag : Octet) (zones : ZoneSet) (ga gb : Word16) (channel : Octet) (noChannel : Bool) (depth : Octet)
    (s : State) : State :=
  if noChannel = false ∧ 7 < channel.toNat then respond tag kindZoneAudio .field [] s
  else
    let a := clampNat 0 255 ga.toNat
    let b := clampNat 0 255 gb.toNat
    let d := clampNat 0 128 depth.toNat
    let bg : Option (Fin 8) := if noChannel then none else some (Fin.ofNat 8 channel.toNat)
    respond tag kindZoneAudio (.ofClamp (decide (a ≠ ga.toNat ∨ b ≠ gb.toNat ∨ d ≠ depth.toNat))) []
      ((members zones).foldl (fun t z => t.modZone z (Zone.setAudio a b bg d)) s)

/-- ZONE_AUDIO (R68). -/
def execZoneAudio (tag : Octet) (zones : ZoneSet) (ga gb : Word16) (channel : Octet) (noChannel : Bool) (depth : Octet)
    (s : State) : Outcome :=
  .next (s.onCommand (.zoneAudio tag zones ga gb channel noChannel depth)
    (zoneAudio tag zones ga gb channel noChannel depth))

/-! ## Amplifier power (R87, R89) -/

/-- A zone is to be rested: ON, NIGHT or CLOSED, idle, and idle for the amp idle time (R87). -/
def mayRest (z : Fin 16) (s : State) : Bool :=
  let k := s.zones[z]
  decide (k.power = .on) && (decide (k.mode = .night) || decide (k.mode = .closed)) && k.isIdle
    && expired s.elapsed k.idleStamp (s.za.ampIdle * 1000)

/-- AMP REST is queued and the power becomes STANDBY, whether or not the cell is accepted (R87). -/
def restZone (z : Fin 16) (s : State) : State :=
  (offerAmp kindAmpRest z s).modZone z fun k => { k with power := .standby }

/-- AMP_REST (R87): at a tick, the zones whose amp idle time is reached are rested in ascending zone number. -/
def execAmpRest (s : State) : Outcome :=
  .next (s.onEvent .ampRest fun t => allZones.foldl (fun u z => if mayRest z u then restZone z u else u) t)

/-- The amp wake limit of a WAKING zone has been reached (R89). -/
def wakeLimitReached (z : Fin 16) (s : State) : Bool :=
  let k := s.zones[z]
  decide (k.power = .waking) && k.wakeStamp.any fun st => expired s.elapsed st s.za.ampWake

/-- A wake ends without confirmation: ON, counted, AMP-WAKE sent (R89). -/
def endWake (z : Fin 16) (s : State) : State :=
  notify .ampWake z.val (u8 0 ++ u16 s.za.ampWake)
    (s.modZone z fun k => { k with power := .on, wakeStamp := none, unconfirmed := bump k.unconfirmed })

/-- AMP_WAKE_LIMIT (R89): at a tick, the wakes that reach the limit are ended in ascending zone number. -/
def execAmpWakeLimit (s : State) : Outcome :=
  .next (s.onEvent .ampWakeLimit fun t =>
    allZones.foldl (fun u z => if wakeLimitReached z u then endWake z u else u) t)

/-- AMP READY ends the wake of a WAKING zone, and is stray for any other zone or slot (R89). -/
def ampReady (leg : Fin 4) (slot : Octet) (s : State) : State :=
  let stray := s.modZa fun x => { x with strayReady := bump x.strayReady }
  if h : slot.toNat < 4 then
    let z := zoneOf leg ⟨slot.toNat, h⟩
    if s.zones[z].power = .waking then s.modZone z fun k => { k with power := .on, wakeStamp := none } else stray
  else stray

/-- AMP_READY (R89). -/
def execAmpReady (leg : Fin 4) (slot : Octet) (s : State) : Outcome :=
  .next (s.onCell (.ampReady leg slot) (ampReady leg slot))

/-! ## Line tests (R106 to R113) -/

/-- A zone's test state changes and the Zone Arbiter re-evaluates the zone (R104). -/
def changeTest (z : Fin 16) (t : TestState) (s : State) : State :=
  reevaluate s [z] (s.modZone z fun k => { k with test := t })

/-- The zones whose test state is PENDING or TESTING. -/
def State.testZones (s : State) : ZoneSet := setOf fun z => decide (s.zones[z].test ≠ .none)

/-- SUPERVISE: each NONE zone of the set becomes PENDING, and those zones are re-evaluated (R106). -/
def supervise (tag : Octet) (zones : ZoneSet) (s : State) : State :=
  let fresh := (members zones).filter fun z => decide (s.zones[z].test = .none)
  let t := reevaluate s fresh (fresh.foldl (fun u z => u.modZone z fun k => { k with test := .pending }) s)
  respond tag kindSupervise .done (u16 t.testZones.toNat) t

/-- SUPERVISE (R106). -/
def execSupervise (tag : Octet) (zones : ZoneSet) (s : State) : Outcome :=
  .next (s.onCommand (.supervise tag zones) <| asEvent (supervise tag zones))

/-- A zone can be tested: PENDING, ON and without owner (R107). -/
def Zone.testable (k : Zone) : Bool := decide (k.test = .pending) && decide (k.power = .on) && k.owner.isNone

/-- The slot of the lowest-numbered testable zone of a leg. -/
def testableSlot (leg : Fin 4) (s : State) : Option (Fin 4) :=
  (List.finRange 4).find? fun k => s.zones[zoneOf leg k].testable

/-- The leg may start a test: its slot IDLE, UP, and no refused start within the test timeout (R107). -/
def mayTest (leg : Fin 4) (s : State) : Bool :=
  s.meas[leg].zone.isNone && s.ports[legPort leg].up
    && s.meas[leg].retry.all fun r => expired s.elapsed r s.testTimeout

/-- A start: the test number advances and the LINE TEST is offered; accepted, the slot and the zone are TESTING, refused,
the retry stamp is taken (R107). -/
def startTest (leg slot : Fin 4) (s : State) : State :=
  let n := s.meas[leg].number + 1
  let (t, ok) := offer (legPort leg)
    { cell := mkCell kindLineTest (ampAddr leg) 0 [oct slot.val, n], urgent := false, maker := .supervisor }
    (s.modMeas leg fun m => { m with number := n })
  if ok then
    changeTest (zoneOf leg slot) .testing
      (t.modMeas leg fun m => { m with zone := some slot, departure := none, retry := none, started := bump m.started })
  else t.modMeas leg fun m => { m with retry := some s.elapsed, refused := bump m.refused }

/-- LINE_TEST_START (R107): at a tick, an IDLE slot of an UP leg starts the lowest pending zone that is ON and free. -/
def execLineTestStart (leg : Fin 4) (s : State) : Outcome :=
  .next (s.onEvent (.lineTestStart leg) <| asEvent fun t =>
    if mayTest leg t then
      match testableSlot leg t with
      | some k => startTest leg k t
      | none => t
    else t)

/-- A zone's health takes a new value with its impedance code; a change sets the latch and sends ZONE-HEALTH (R113). -/
def setHealth (z : Fin 16) (h : Health) (impedance : Option Octet) (s : State) : State :=
  let old := s.zones[z].health
  let t := s.modZone z fun k => { k with health := h, impedance }
  if old = h then t
  else notify .zoneHealth z.val (u8 old.code ++ u8 h.code ++ optional 1 (fun i => [i]) impedance)
    (t.modZone z fun k => { k with healthLatch := true })

/-- The slot becomes IDLE with zone and departure stamp absent (R109, R111). -/
def MeasSlot.free (m : MeasSlot) : MeasSlot := { m with zone := none, departure := none }

/-- A LINE RESULT is taken: the slot number and the test number are those of the test in progress, which has departed
(R109). -/
def MeasSlot.takes (m : MeasSlot) (slot number : Octet) : Bool :=
  (m.zone.any fun k => decide (slot.toNat = k.val)) && m.departure.isSome && m.number == number

/-- LINE RESULT: it ends the matching test with its class, and is stray otherwise (R109, R110). -/
def lineResult (leg : Fin 4) (slot number cls impedance : Octet) (s : State) : State :=
  let stray := s.modMeas leg fun m => { m with stray := bump m.stray }
  if s.meas[leg].takes slot number then
    match s.meas[leg].zone, Health.ofClass cls.toNat with
    | some k, some h =>
      let z := zoneOf leg k
      changeTest z .none (setHealth z h (some impedance)
        (s.modMeas leg fun m => { m.free with completed := bump m.completed }))
    | _, _ => stray
  else stray

/-- LINE_RESULT (R109). -/
def execLineResult (leg : Fin 4) (slot number cls impedance : Octet) (s : State) : Outcome :=
  .next (s.onCell (.lineResult leg slot number cls impedance) <| asEvent (lineResult leg slot number cls impedance))

/-- A departed test whose timeout has expired ends without a result (R111). -/
def testTimeout (leg : Fin 4) (s : State) : State :=
  match s.meas[leg].zone, s.meas[leg].departure with
  | some k, some d =>
    if expired s.elapsed d s.testTimeout then
      let z := zoneOf leg k
      changeTest z .none (setHealth z .noReply none
        (s.modMeas leg fun m => { m.free with timedOut := bump m.timedOut }))
    else s
  | _, _ => s

/-- TEST_TIMEOUT (R111). -/
def execTestTimeout (leg : Fin 4) (s : State) : Outcome := .next (s.onEvent (.testTimeout leg) <| asEvent (testTimeout leg))

/-- A leg that goes DOWN aborts a test in progress, departed or not (R112). -/
def abortTestByLeg (leg : Fin 4) (s : State) : State :=
  match s.meas[leg].zone with
  | some k => changeTest (zoneOf leg k) .pending (s.modMeas leg MeasSlot.abort)
  | none => s

end Sys2Proof.Machine
end

