-- ==== Sys2Proof/Machine/Clock.lean ====
section
/-!
DEFINITION. The Campus Clock: the clock tick with its slew, midnight and second boundaries, TIME, and holdover (chapter 1).
-/
namespace Sys2Proof.Machine

def kindTime : Octet := 0x01

/-- CLOCK-STATE (R6). -/
def noticeClockState (old new : ClockState) (s : State) : State :=
  notify .clockState 0 (u8 old.code ++ u8 new.code) s

/-! ## The clock tick (R7 to R9, R11) -/

/-- The slew counter reaches K at the coming clock tick, which is then a slew tick (R11). -/
def Clock.slewsNext (c : Clock) : Bool := decide (c.slewInterval ≤ c.slewCounter + 1)

/-- By how much the coming clock tick advances T (R11). -/
def Clock.advance (c : Clock) : Nat :=
  if c.slewsNext then (if 0 < c.correction then 2 else if c.correction < 0 then 0 else 1) else 1

/-- C after the coming clock tick (R11). -/
def Clock.nextCorrection (c : Clock) : Int :=
  if c.slewsNext then
    (if 0 < c.correction then c.correction - 1 else if c.correction < 0 then c.correction + 1 else 0)
  else c.correction

/-- A weekday moved by a number of days (R8, R17). -/
def addWeekday (w : Nat) (q : Int) : Nat := (((w : Int) + q) % 7).toNat

/-- The clock's own part of a clock tick: the frame phase at 0, the slew counter and C, the advance of T with the wrap of
midnight (R7, R8, R11). -/
def Clock.tick (c : Clock) : Clock :=
  let t := c.timeOfDay + c.advance
  let d := { c with
    framePhase := 0, slewCounter := if c.slewsNext then 0 else c.slewCounter + 1, correction := c.nextCorrection }
  if dayMs ≤ t then { d with timeOfDay := t - dayMs, day := c.day + 1, weekday := addWeekday c.weekday 1 }
  else { d with timeOfDay := t }

/-- A clock tick with its signals: midnight first, then the second boundary (R8, R9). -/
def clockTick (s : State) : State :=
  let t := s.modClock Clock.tick
  let u := if dayMs ≤ s.clock.timeOfDay + s.clock.advance then schedMidnight t.clock.day t.clock.weekday t else t
  if secondOf s.clock.timeOfDay = secondOf t.clock.timeOfDay then u
  else schedSecond (secondOf t.clock.timeOfDay) t.clock.day t.clock.weekday u

/-- CLOCK_TICK (R7): the clock tick of the frame, whichever kind R11 makes it. -/
def execClockTick (s : State) : Outcome := .next (s.onEvent .clockTick <| asEvent clockTick)

/-- SLEW_TICK (R11): the clock tick of the frame, where the slew counter brings a slew tick. -/
def execSlewTick (s : State) : Outcome :=
  let t := s.settle
  .next (if t.clock.slewsNext then (t.onEvent .clockTick <| asEvent clockTick) else t)

/-- MILLISECOND_TICK (R1): the millisecond tick of the frame, if it is still to be taken: its counts, unless an event of the
frame has already taken them (R2), and the move of the duck factors toward the targets, by the rate, as they now stand
(R98, R102). -/
def execMillisecondTick (s : State) : Outcome := .next (s.onEvent .millisecondTick rampZones)

/-! ## Holdover (R21) -/

/-- The holdover limit has expired: LOCKED, and H s since the last accepted TIME. -/
def holdoverDue (s : State) : Bool :=
  decide (s.clock.state = .locked)
    && s.clock.lastAccept.any fun st => expired s.elapsed st (s.clock.holdoverLimit * 1000)

/-- LOCKED becomes HOLDOVER, counted, with its notice. -/
def enterHoldover (s : State) : State :=
  noticeClockState s.clock.state .holdover
    (s.modClock fun c => { c with state := .holdover, holdovers := bump c.holdovers })

/-- HOLDOVER_EXPIRY (R21). -/
def execHoldoverExpiry (s : State) : Outcome :=
  .next (s.onEvent .holdoverExpiry fun t => if holdoverDue t then enterHoldover t else t)

/-! ## TIME (R13 to R19) -/

/-- The outcomes of TIME, in the order of R19. -/
inductive TimeOutcome where
  | set | step | slew
  deriving DecidableEq, Repr

def TimeOutcome.code : TimeOutcome → Nat
  | .set => 0 | .step => 1 | .slew => 2

/-- The error of a reference against a capture record (R16). -/
def timeError (tref : Nat) (dref : Day) (cap : Capture) : Int :=
  (dref - cap.day).toInt * 86400000 + ((tref : Int) - cap.timeOfDay)

/-- An error as it is reported: saturated (R16). -/
def reportedError (e : Int) : Int := clampInt (-2147483647) 2147483647 e

/-- The common end of an accepted TIME (R19). -/
def acceptTime (tag : Octet) (outcome : TimeOutcome) (e : Int) (s : State) : State :=
  let old := s.clock.state
  let t := s.modClock fun c => { c with lastAccept := some s.elapsed, state := .locked }
  let u := if old = .locked then t else noticeClockState old .locked t
  respond tag kindTime .done (u8 outcome.code ++ i32 (reportedError e)) u

/-- TIME in UNSET sets the clock, allowing for the milliseconds since the capture (R15). -/
def setClock (tref : Nat) (dref : Day) (wref : Nat) (cap : Capture) (s : State) : State :=
  let t := tref + since s.elapsed cap.elapsed
  let q := t / dayMs
  let u := s.modClock fun c => { c with
    timeOfDay := t % dayMs, day := dref + BitVec.ofNat 16 q, weekday := addWeekday wref q, framePhase := 0,
    correction := 0, sets := bump c.sets }
  schedSet u.clock.timeOfDay u.clock.day u.clock.weekday u

/-- The clock's own part of a step: T, D and W moved by e, C at 0, counted (R17). -/
def Clock.stepBy (e : Int) (c : Clock) : Clock :=
  let sum := (c.timeOfDay : Int) + e
  let q := sum / 86400000
  { c with timeOfDay := (sum % 86400000).toNat, day := c.day + BitVec.ofInt 16 q, weekday := addWeekday c.weekday q,
           correction := 0, steps := bump c.steps }

/-- A step with the signals to the Schedule Engine and then to the Room Roster, and CLOCK-STEP (R17). -/
def stepClock (e : Int) (s : State) : State :=
  let t := s.modClock (Clock.stepBy e)
  let u := rosterStep
    (schedStep s.clock.timeOfDay s.clock.day t.clock.timeOfDay t.clock.day t.clock.weekday t)
  notify .clockStep 0 (i32 (reportedError e) ++ u32 t.clock.timeOfDay ++ u16 t.clock.day.toNat) u

/-- A slew replaces C by e (R18). -/
def slewClock (e : Int) (s : State) : State :=
  s.modClock fun c => { c with correction := e, slews := bump c.slews }

/-- TIME (R14). -/
def time (tag : Octet) (tref : Word32) (dref : Day) (wref : Octet) (force : Bool) (cap : Capture) (s : State) : State :=
  if dayMs ≤ tref.toNat ∨ 6 < wref.toNat then respond tag kindTime .field [] s
  else if s.clock.state = .unset then acceptTime tag .set 0 (setClock tref.toNat dref wref.toNat cap s)
  else
    let e := timeError tref.toNat dref cap
    if force ∨ s.clock.stepThreshold ≤ e.natAbs then acceptTime tag .step e (stepClock e s)
    else acceptTime tag .slew e (slewClock e s)

/-- TIME (R14). -/
def execTime (tag : Octet) (tref : Word32) (dref : Day) (wref : Octet) (force : Bool) (cap : Capture) (s : State) :
    Outcome :=
  .next (s.onCommand (.time tag tref dref wref force cap) <| asEvent (time tag tref dref wref force cap))

end Sys2Proof.Machine
end

