-- ==== Sys2Proof/Machine/PageCommands.lean ====
section
/-!
DEFINITION. PAGE OPEN, PAGE CHANGE, PAGE CLOSE, and the two limits of a page (4.3).
-/
namespace Sys2Proof.Machine

def kindPageOpen : Octet := 0x08
def kindPageChange : Octet := 0x09
def kindPageClose : Octet := 0x0A

/-- A page starts: its claim and the re-evaluation to its end, then its chime (R76). -/
def startPage (p : Fin 8) (s : State) : State := askChime p (reexamine (claimPage p s))

/-- A page starts if it may, and is PENDING otherwise (R76). -/
def startOrWait (p : Fin 8) (s : State) : State :=
  if mayStart p s then startPage p s else s.modPage p fun g => { g with state := .pending }

/-- The record of an accepted PAGE OPEN; its state is settled by `startOrWait` (R75). -/
def Page.opened (prio : Nat) (wanted : ZoneSet) (chime : Option Nat) (allOrNone silenceClose : Bool) (stamp : Word32)
    (tag : Octet) : Page :=
  { state := .free, priority := prio, wanted, chime, chimeGen := none, chimeSkipped := false, allOrNone, silenceClose,
    openStamp := stamp, tag, silenceStamp := none }

/-- The data of a PAGE OPEN response: state, granted set, chime generator, chime skipped (R75; assumption 10). -/
def pageOpenData (p : Fin 8) (s : State) : List Octet :=
  u8 s.pages[p].state.code ++ u16 (s.granted p).toNat ++ optional 1 (fun g : Fin 4 => u8 g.val) s.pages[p].chimeGen
    ++ flag s.pages[p].chimeSkipped

/-- A page that is opened meets the zones as they stand (R76): no claim is excused against it, and none was removed for it. -/
def excuseNone (p : Fin 8) (s : State) : State :=
  s.modContest fun x => { x with
    excused := x.excused.set p (Vector.replicate 13 0), eased := without x.eased (BitVec.twoPow 8 p.val) }

/-- PAGE OPEN, checked in the order of R75's table. -/
def pageOpen (tag channel prio : Octet) (zones : ZoneSet) (chime : Octet) (chimeAbsent allOrNone silenceClose : Bool)
    (s : State) : State :=
  if h : channel.toNat < 8 then
    let p : Fin 8 := ⟨channel.toNat, h⟩
    if chimeAbsent = false ∧ 15 < chime.toNat then respond tag kindPageOpen .field [] s
    else if s.pages[p].state ≠ .free then respond tag kindPageOpen .busy [] s
    else
      let n := clampNat 1 13 prio.toNat
      let t := startOrWait p ((excuseNone p s).modPage p fun _ =>
        Page.opened n zones (if chimeAbsent then none else some chime.toNat) allOrNone silenceClose s.elapsed tag)
      respond tag kindPageOpen (.ofClamp (decide (n ≠ prio.toNat))) (pageOpenData p t) t
  else respond tag kindPageOpen .field [] s

/-- PAGE_OPEN (R75). -/
def execPageOpen (tag channel prio : Octet) (zones : ZoneSet) (chime : Octet) (chimeAbsent allOrNone silenceClose : Bool)
    (s : State) : Outcome :=
  .next (s.onCommand (.pageOpen tag channel prio zones chime chimeAbsent allOrNone silenceClose) <| asEvent
    (pageOpen tag channel prio zones chime chimeAbsent allOrNone silenceClose))

/-- The wanted set of a page that is not FREE changes: a PENDING page is re-examined, a claim changes with it (R79). -/
def changePage (p : Fin 8) (wanted : ZoneSet) (s : State) : State :=
  let g := s.pages[p]
  let t := s.modPage p fun x => { x with wanted }
  if g.state = .pending then reexamine t else changeClaim (pageClaimant p) g.priority wanted g.openStamp t

/-- PAGE CHANGE with a set operation (R79). -/
def pageChange (tag channel : Octet) (op : Nat) (zones : ZoneSet) (s : State) : State :=
  if h : channel.toNat < 8 then
    let p : Fin 8 := ⟨channel.toNat, h⟩
    match setOp op s.pages[p].wanted zones with
    | none => respond tag kindPageChange .field [] s
    | some wanted =>
      if s.pages[p].state = .free then respond tag kindPageChange .state [] s
      else
        let t := changePage p wanted s
        respond tag kindPageChange .done (u8 t.pages[p].state.code ++ u16 (t.granted p).toNat) t
  else respond tag kindPageChange .field [] s

/-- PAGE_CHANGE_WRITE (R79). -/
def execPageChangeWrite (tag channel : Octet) (zones : ZoneSet) (s : State) : Outcome :=
  .next (s.onCommand (.pageChangeWrite tag channel zones) <| asEvent (pageChange tag channel 0 zones))

/-- PAGE_CHANGE_SET (R79). -/
def execPageChangeSet (tag channel : Octet) (zones : ZoneSet) (s : State) : Outcome :=
  .next (s.onCommand (.pageChangeSet tag channel zones) <| asEvent (pageChange tag channel 1 zones))

/-- PAGE_CHANGE_CLEAR (R79). -/
def execPageChangeClear (tag channel : Octet) (zones : ZoneSet) (s : State) : Outcome :=
  .next (s.onCommand (.pageChangeClear tag channel zones) <| asEvent (pageChange tag channel 2 zones))

/-- PAGE_CHANGE_UNKNOWN_OPERATION (R79): FIELD, nothing changes. -/
def execPageChangeUnknownOperation (tag channel op : Octet) (zones : ZoneSet) (s : State) : Outcome :=
  .next (s.onCommand (.pageChangeUnknownOperation tag channel op zones) (respond tag kindPageChange .field []))

/-- PAGE CLOSE (R80). -/
def pageClose (tag channel : Octet) (s : State) : State :=
  if h : channel.toNat < 8 then
    let p : Fin 8 := ⟨channel.toNat, h⟩
    if s.pages[p].state = .free then respond tag kindPageClose .state [] s
    else respond tag kindPageClose .done (u32 (since s.elapsed s.pages[p].openStamp)) (endPage p .closed s)
  else respond tag kindPageClose .field [] s

/-- PAGE_CLOSE (R80). -/
def execPageClose (tag channel : Octet) (s : State) : Outcome :=
  .next (s.onCommand (.pageClose tag channel) <| asEvent (pageClose tag channel))

/-- PAGE_MAX_TIME (R82): the page maximum duration of a page that is not FREE expires. -/
def execPageMaxTime (p : Fin 8) (s : State) : Outcome :=
  .next (s.onEvent (.pageMaxTime p) <| asEvent fun t =>
    if t.pages[p].state ≠ .free ∧ expired t.elapsed t.pages[p].openStamp (t.za.pageMax * 1000) then endPage p .maxTime t
    else t)

/-- A page is to be closed by silence: LIVE with the flag set, its detector INACTIVE, the limit reached (R83). -/
def silenceDue (p : Fin 8) (s : State) : Bool :=
  let g := s.pages[p]
  decide (g.state = .live) && g.silenceClose && !s.detectors[p].active
    && g.silenceStamp.any fun st => expired s.elapsed st (s.za.pageSilence * 1000)

/-- PAGE_SILENCE (R83). -/
def execPageSilence (p : Fin 8) (s : State) : Outcome :=
  .next (s.onEvent (.pageSilence p) <| asEvent fun t => if silenceDue p t then endPage p .silence t else t)

end Sys2Proof.Machine
end

