-- ==== Sys2Proof/Machine/Patterns.lean ====
section
/-!
DEFINITION. PATTERN WRITE: the draft and the pattern table (2.2).
-/
namespace Sys2Proof.Machine

def kindPatternWrite : Octet := 0x0D

/-- Every response of PATTERN WRITE carries the operation and the pattern index concerned (2.2), then its own data. -/
def answerPattern (tag : Octet) (op index : Nat) (r : Result) (data : List Octet) (s : State) : State :=
  respond tag kindPatternWrite r (u8 op ++ u8 index ++ data) s

/-- The target index of the draft, 0 where there is none (assumption 10). -/
def Arbiter.target (a : Arbiter) : Nat := (a.draft.map Draft.target).getD 0

/-- A tone of DEFINE: 0 is kept for tone B, where it means absent; else clamped to 100–3000 Hz (R25). -/
def clampTone (n : Nat) : Nat := clampNat 100 3000 n

/-- PATTERN WRITE DEFINE (R25). -/
def patternDefine (tag pattern : Octet) (toneA toneB amplitude : Word16) (inverted : Bool)
    (repeatCount stepCount : Octet) (s : State) : State :=
  if 15 < pattern.toNat then answerPattern tag 0 pattern.toNat .field [] s
  else
    let a := clampTone toneA.toNat
    let b := if toneB = 0 then 0 else clampTone toneB.toNat
    let m := clampNat 0 32767 amplitude.toNat
    let n := clampNat 1 8 stepCount.toNat
    let d : Draft :=
      { target := pattern.toNat, toneA := a, toneB := if toneB = 0 then none else some b, amplitude := m, inverted,
        repeatCount := repeatCount.toNat, steps := List.replicate n none }
    answerPattern tag 0 pattern.toNat
      (.ofClamp (decide (a ≠ toneA.toNat ∨ b ≠ toneB.toNat ∨ m ≠ amplitude.toNat ∨ n ≠ stepCount.toNat))) []
      (s.modArb fun x => { x with draft := some d })

/-- PATTERN_WRITE_DEFINE (R25). -/
def execPatternWriteDefine (tag pattern : Octet) (toneA toneB amplitude : Word16) (inverted : Bool)
    (repeatCount stepCount : Octet) (s : State) : Outcome :=
  .next (s.onCommand (.patternWriteDefine tag pattern toneA toneB amplitude inverted repeatCount stepCount)
    (patternDefine tag pattern toneA toneB amplitude inverted repeatCount stepCount))

/-- The kind and the duration of a step word: bits 14 and 15 the kind, bits 0 to 13 the duration in 10 ms units (R162). -/
def stepWordKind (w : Word16) : Option StepKind :=
  match w.toNat / 16384 with
  | 0 => some .toneA
  | 1 => some .toneB
  | 2 => some .silence
  | _ => none

def stepWordUnits (w : Word16) : Nat := w.toNat % 16384

/-- A step word as a step of the draft, its duration clamped to 1–500 units, none where its kind is unknown (R26). -/
def stepOfWord (w : Word16) : Option PatStep := (stepWordKind w).map fun k => ⟨k, clampNat 1 500 (stepWordUnits w)⟩

/-- The duration of a step word is clamped (R26). -/
def stepWordClamps (w : Word16) : Bool := decide (clampNat 1 500 (stepWordUnits w) ≠ stepWordUnits w)

/-- A step may enter the draft: its kind is known, and tone B is present for a step of kind B (R26). -/
def Draft.admits (d : Draft) (s : Option PatStep) : Bool :=
  match s with
  | some x => d.toneB.isSome || decide (x.kind ≠ .toneB)
  | none => false

/-- Steps put into the positions from the first on (R26). -/
def fillSteps (positions : List (Option PatStep)) (first : Nat) (new : List (Option PatStep)) : List (Option PatStep) :=
  positions.take first ++ new ++ positions.drop (first + new.length)

/-- How many positions of a draft are filled (R26). -/
def Draft.filled (d : Draft) : Nat := (d.steps.filter Option.isSome).length

/-- PATTERN WRITE STEPS: the count field stands for one to four steps (R26, R162). -/
def patternSteps (tag first : Octet) (words : Vector Word16 4) (count : Fin 4) (s : State) : State :=
  let ws := words.toList.take (count.val + 1)
  let new := ws.map stepOfWord
  match s.arb.draft with
  | none => answerPattern tag 1 s.arb.target .state [] s
  | some d =>
    if d.steps.length < first.toNat + ws.length ∨ new.all d.admits = false then
      answerPattern tag 1 d.target .field [] s
    else
      let e := { d with steps := fillSteps d.steps first.toNat new }
      answerPattern tag 1 d.target (.ofClamp (ws.any stepWordClamps)) (u16 e.filled)
        (s.modArb fun x => { x with draft := some e })

/-- PATTERN_WRITE_STEPS (R26). -/
def execPatternWriteSteps (tag first : Octet) (words : Vector Word16 4) (count : Fin 4) (s : State) : Outcome :=
  .next (s.onCommand (.patternWriteSteps tag first words count) (patternSteps tag first words count))

/-- The first unfilled position of a draft (R27). -/
def firstUnfilled : List (Option PatStep) → Option Nat
  | [] => none
  | none :: _ => some 0
  | some _ :: rest => (firstUnfilled rest).map (· + 1)

/-- A generator is RUNNING with a pattern index (R27, R28). -/
def patternInUse (index : Nat) (s : State) : Bool :=
  (List.finRange 5).any fun g => s.gens[g].running && s.gens[g].pattern == index

/-- The pattern that a wholly filled draft makes (R27). -/
def Draft.pattern (d : Draft) : Pattern :=
  { toneA := d.toneA, toneB := d.toneB, amplitude := d.amplitude, inverted := d.inverted, repeatCount := d.repeatCount,
    steps := d.steps.filterMap id }

/-- A table entry takes new content. -/
def Arbiter.setPattern (index : Nat) (p : Option Pattern) (a : Arbiter) : Arbiter :=
  if h : index < 16 then { a with patterns := a.patterns.set index p } else a

/-- PATTERN WRITE STORE (R27). -/
def patternStore (tag : Octet) (s : State) : State :=
  match s.arb.draft with
  | none => answerPattern tag 2 s.arb.target .state [] s
  | some d =>
    match firstUnfilled d.steps with
    | some n => answerPattern tag 2 d.target .state (u8 n) s
    | none =>
      if patternInUse d.target s then answerPattern tag 2 d.target .inUse [] s
      else answerPattern tag 2 d.target .done []
        (s.modArb fun x => { x.setPattern d.target (some d.pattern) with draft := none })

/-- PATTERN_WRITE_STORE (R27). -/
def execPatternWriteStore (tag : Octet) (s : State) : Outcome :=
  .next (s.onCommand (.patternWriteStore tag) (patternStore tag))

/-- PATTERN WRITE EMPTY (R28). -/
def patternEmpty (tag pattern : Octet) (s : State) : State :=
  if 15 < pattern.toNat then answerPattern tag 3 pattern.toNat .field [] s
  else if patternInUse pattern.toNat s then answerPattern tag 3 pattern.toNat .inUse [] s
  else answerPattern tag 3 pattern.toNat .done [] (s.modArb fun x => x.setPattern pattern.toNat none)

/-- PATTERN_WRITE_EMPTY (R28). -/
def execPatternWriteEmpty (tag pattern : Octet) (s : State) : Outcome :=
  .next (s.onCommand (.patternWriteEmpty tag pattern) (patternEmpty tag pattern))

/-- PATTERN_WRITE_UNKNOWN_OPERATION (2.2): FIELD. The operation concerns no pattern; the index is sent as the draft's, or
0 (assumption 10). -/
def execPatternWriteUnknownOperation (tag op : Octet) (s : State) : Outcome :=
  .next (s.onCommand (.patternWriteUnknownOperation tag op) fun t => answerPattern tag op.toNat t.arb.target .field [] t)

end Sys2Proof.Machine
end

