-- ==== Sys2Proof/Machine/Configure.lean ====
section
/-!
DEFINITION. The parameter table: the owners' values in force, and CONFIGURE (10.3, R180).
-/
namespace Sys2Proof.Machine

def kindConfigure : Octet := 0x02

/-! ## The 31 parameters -/

/-- The rise or the fall enables as a set of inputs (R134). -/
def State.edgeEnables (rise : Bool) (s : State) : InputSet := setOf fun i => if rise then s.inputs[i].rise else s.inputs[i].fall

/-- The value in force of a parameter, held by its owner (R177, 10.3). -/
def State.param (n : Nat) (s : State) : Int :=
  match n with
  | 1 => s.clock.stepThreshold
  | 2 => s.clock.slewRate
  | 3 => s.clock.holdoverLimit
  | 4 => s.clock.frameTrim
  | 5 => s.sched.catchUpWindow
  | 6 => s.arb.lateLimit
  | 7 => s.za.pageMax
  | 8 => s.za.pageSilence
  | 9 => s.za.detHigh
  | 10 => s.za.detLow
  | 11 => s.duckRate
  | 12 => s.za.ampIdle
  | 13 => s.za.ampWake
  | 14 => s.za.drillFloor
  | 15 => s.testTimeout
  | 16 => s.roster.pollInterval
  | 17 => s.roster.replyTimeout
  | 18 => s.roster.tolerance
  | 19 => s.drill.toneLimit
  | 20 => s.drill.prealertPattern
  | 21 => s.drill.evacPattern
  | 22 => s.drill.allclearPattern
  | 23 => s.drill.alarmPattern
  | 24 => s.drill.keyPrealert
  | 25 => s.drill.keyTarget
  | 26 => s.drill.keyStaff.toNat
  | 27 => s.drill.keyAutoHold.toNat
  | 28 => s.drill.debounce
  | 29 => (s.edgeEnables true).toNat
  | 30 => (s.edgeEnables false).toNat
  | 31 => s.mgmt.enables.toNat
  | _ => 0

/-- The range of a quantity, none for a parameter that is no quantity (10.3). -/
def quantityRange (n : Nat) : Option (Int × Int) :=
  match n with
  | 1 => some (100, 60000)
  | 2 => some (1, 60)
  | 3 => some (10, 3600)
  | 4 => some (-200, 200)
  | 5 => some (0, 600)
  | 6 => some (0, 30000)
  | 7 => some (10, 3600)
  | 8 => some (1, 60)
  | 9 => some (256, 32767)
  | 10 => some (256, 32767)
  | 11 => some (1, 128)
  | 12 => some (10, 600)
  | 13 => some (100, 5000)
  | 14 => some (1, 14)
  | 15 => some (100, 2000)
  | 16 => some (100, 5000)
  | 17 => some (50, 1000)
  | 18 => some (20, 2000)
  | 19 => some (60, 1800)
  | 24 => some (0, 120)
  | 25 => some (1, 1800)
  | 28 => some (1, 100)
  | _ => none

/-- C held below a new step threshold in magnitude, its sign kept (R12). -/
def clampCorrection (threshold : Nat) (c : Int) : Int :=
  if c.natAbs < threshold then c else if c < 0 then -((threshold : Int) - 1) else (threshold : Int) - 1

/-- The step threshold S is written, and C clamped below it (R12). -/
def Clock.setStepThreshold (n : Nat) (c : Clock) : Clock :=
  { c with stepThreshold := n, correction := clampCorrection n c.correction }

/-- The slew rate R is written, the slew interval K recomputed, the slew counter set to 0 (R10). -/
def Clock.setSlewRate (n : Nat) (c : Clock) : Clock :=
  { c with slewRate := n, slewInterval := 60000 / n, slewCounter := 0 }

/-- The drill floor is written; while the drill state is not IDLE every zone is re-evaluated (R66). -/
def setDrillFloor (n : Nat) (s : State) : State :=
  let t := s.modZa fun x => { x with drillFloor := n }
  if s.drill.state = .idle then t else reevaluate s allZones t

/-- A quantity in its range goes to its owner, which applies it under its own rule (R180). -/
def State.setQuantity (n : Nat) (v : Int) (s : State) : State :=
  let m := v.toNat
  match n with
  | 1 => s.modClock (Clock.setStepThreshold m)
  | 2 => s.modClock (Clock.setSlewRate m)
  | 3 => s.modClock fun c => { c with holdoverLimit := m }
  | 4 => s.modClock fun c => { c with frameTrim := v }
  | 5 => s.modSched fun x => { x with catchUpWindow := m }
  | 6 => s.modArb fun a => { a with lateLimit := m }
  | 7 => s.modZa fun x => { x with pageMax := m }
  | 8 => s.modZa fun x => { x with pageSilence := m }
  | 9 => s.modZa fun x => { x with detHigh := m }
  | 10 => s.modZa fun x => { x with detLow := m }
  | 11 => s.setDuckRate m
  | 12 => s.modZa fun x => { x with ampIdle := m }
  | 13 => s.modZa fun x => { x with ampWake := m }
  | 14 => setDrillFloor m s
  | 15 => s.setTestTimeout m
  | 16 => s.modRoster fun r => { r with pollInterval := m }
  | 17 => s.modRoster fun r => { r with replyTimeout := m }
  | 18 => s.modRoster fun r => { r with tolerance := m }
  | 19 => s.modDrill fun d => { d with toneLimit := m }
  | 24 => s.modDrill fun d => { d with keyPrealert := m }
  | 25 => s.modDrill fun d => { d with keyTarget := m }
  | 28 => s.modDrill fun d => { d with debounce := m }
  | _ => s

/-! ## Answers -/

/-- An accepted CONFIGURE answers with the parameter number and the value in force after the write (R180). -/
def answerConfigure (tag : Octet) (n : Nat) (clamped : Bool) (s : State) : State :=
  respond tag kindConfigure (.ofClamp clamped) (u16 n ++ i32 (s.param n)) s

/-- A quantity is written, held to a range by `fit` (R180). -/
def writeQuantity (tag : Octet) (n : Nat) (fit : Int → Int) (value : Word32) (s : State) : State :=
  let v := fit value.toInt
  answerConfigure tag n (decide (v ≠ value.toInt)) (s.setQuantity n v)

/-- A quantity written within the range of its parameter. -/
def writeRanged (tag : Octet) (n : Nat) (value : Word32) (s : State) : State :=
  match quantityRange n with
  | some (lo, hi) => writeQuantity tag n (clampInt lo hi) value s
  | none => respond tag kindConfigure .field [] s

/-! ## Detector thresholds and edge enables -/

/-- A threshold held to its range, and then against the other one: low stays at most high − 1 (R86). -/
def fitThreshold (high : Bool) (z : ZoneParams) (v : Int) : Int :=
  let w := clampInt 256 32767 v
  if high then max w (z.detLow + 1) else min w (z.detHigh - 1)

/-- A detector threshold is written (R86). -/
def configureThreshold (tag : Octet) (high : Bool) (value : Word32) (s : State) : State :=
  writeQuantity tag (if high then 9 else 10) (fitThreshold high s.za) value s

/-- One enable of an input is written; with both off its latch is cleared (R134). -/
def Input.setEnable (rise on : Bool) (x : Input) : Input :=
  let y := if rise then { x with rise := on } else { x with fall := on }
  { y with latch := y.latch && (y.rise || y.fall) }

/-- The rise or the fall set is written (R134). -/
def configureEdges (tag : Octet) (rise : Bool) (value : Word32) (op : Octet) (s : State) : State :=
  match setOp op.toNat (s.edgeEnables rise) (value.setWidth 4) with
  | some x =>
    answerConfigure tag (if rise then 29 else 30) false
      ((List.finRange 4).foldl (fun t i => t.modInput i (Input.setEnable rise (x.getLsbD i.val))) s)
  | none => respond tag kindConfigure .field [] s

/-! ## The plain parameters -/

/-- A pattern index goes to the Drill Sequencer; the pattern that EG plays is unchanged (8.2). -/
def Drill.setPatternParam (n m : Nat) (d : Drill) : Drill :=
  match n with
  | 20 => { d with prealertPattern := m }
  | 21 => { d with evacPattern := m }
  | 22 => { d with allclearPattern := m }
  | _ => { d with alarmPattern := m }

/-- An index, an enumeration or a set, refused out of its range; a quantity, clamped to it (R180). The parameters that have a
row of their own are written as in that row. -/
def configure (tag : Octet) (number : Word16) (value : Word32) (op : Octet) (s : State) : State :=
  let refuse := respond tag kindConfigure .field [] s
  match number.toNat with
  | 20 | 21 | 22 | 23 =>
    if value.toNat < 16 then
      answerConfigure tag number.toNat false (s.modDrill (Drill.setPatternParam number.toNat value.toNat))
    else refuse
  | 26 =>
    match setOp op.toNat s.drill.keyStaff (value.setWidth 16) with
    | some x => answerConfigure tag 26 false (s.modDrill fun d => { d with keyStaff := x })
    | none => refuse
  | 27 =>
    if value.toNat < 2 then
      answerConfigure tag 27 false (s.modDrill fun d => { d with keyAutoHold := decide (value.toNat = 1) })
    else refuse
  | 31 =>
    match setOp op.toNat s.mgmt.enables (value.setWidth 16 &&& allNotices) with
    | some x => answerConfigure tag 31 false (s.modMgmt fun m => { m with enables := x })
    | none => refuse
  | 9 => configureThreshold tag true value s
  | 10 => configureThreshold tag false value s
  | 29 => configureEdges tag true value op s
  | 30 => configureEdges tag false value op s
  | n => writeRanged tag n value s

/-- CONFIGURE (R180). -/
def execConfigure (tag : Octet) (number : Word16) (value : Word32) (op : Octet) (s : State) : Outcome :=
  .next (s.onCommand (.configure tag number value op) <| asEvent (configure tag number value op))

/-! ## The parameters with a row of their own -/

/-- CONFIGURE_STEP_THRESHOLD (R12). -/
def execConfigureStepThreshold (tag : Octet) (value : Word32) (s : State) : Outcome :=
  .next (s.onCommand (.configureStepThreshold tag value) (writeRanged tag 1 value))

/-- CONFIGURE_SLEW_RATE (R10). -/
def execConfigureSlewRate (tag : Octet) (value : Word32) (s : State) : Outcome :=
  .next (s.onCommand (.configureSlewRate tag value) (writeRanged tag 2 value))

/-- CONFIGURE_DRILL_FLOOR (R66). -/
def execConfigureDrillFloor (tag : Octet) (value : Word32) (s : State) : Outcome :=
  .next (s.onCommand (.configureDrillFloor tag value) <| asEvent (writeRanged tag 14 value))

/-- CONFIGURE_DETECTOR_THRESHOLD (R86). -/
def execConfigureDetectorThreshold (tag : Octet) (high : Bool) (value : Word32) (s : State) : Outcome :=
  .next (s.onCommand (.configureDetectorThreshold tag high value) (configureThreshold tag high value))

/-- CONFIGURE_EDGE_ENABLES (R134). -/
def execConfigureEdgeEnables (tag : Octet) (rise : Bool) (value : Word32) (op : Octet) (s : State) : Outcome :=
  .next (s.onCommand (.configureEdgeEnables tag rise value op) (configureEdges tag rise value op))

end Sys2Proof.Machine
end

