-- ==== Sys2Proof/Machine/Read.lean ====
section
/-!
DEFINITION. READ: the items of the seventeen groups, the latches and counters that a READ clears, and the answer in parts
(10.4 and the 'observing' section of every chapter; layouts by R179, assumptions 9 to 11).
-/
namespace Sys2Proof.Machine

def kindRead : Octet := 0x03

/-! ## The answer in parts (R181) -/

/-- An item: its fields as they stand, and the state after the latches and counters it clears. None where the item is
outside its group's range. -/
abbrev ReadItem := Option (List Octet × State)

/-- How many octets of an item's fields a part carries. -/
def partOctets : Nat := 9

/-- The number of parts of an item of so many octets, at least one. -/
def partCount (octets : Nat) : Nat := max 1 ((octets + (partOctets - 1)) / partOctets)

/-- The data of one part: its index and the part count in octet 6, then nine octets of the fields. -/
def partData (fields : List Octet) (count k : Nat) : List Octet :=
  u8 (16 * k + count) ++ (fields.drop (partOctets * k)).take partOctets

/-- All parts offered upstream in order of part index (R181). -/
def offerParts (tag : Octet) (fields : List Octet) (s : State) : State :=
  let n := partCount fields.length
  (List.range n).foldl (fun t k => offerResponse tag kindRead .done (partData fields n k) t) s

/-- The answer to a READ: the parts of the item, or FIELD without data (R181). -/
def answerRead (tag : Octet) (item : ReadItem) (s : State) : State :=
  match item with
  | some (fields, t) => offerParts tag fields t
  | none => respond tag kindRead .field [] s

/-- A READ of a group whose items are given by their number and the clear flag. -/
def readGroup (tag : Octet) (group : Nat → Bool → State → ReadItem) (item : Word16) (clear : Bool) (s : State) : State :=
  answerRead tag (group item.toNat clear s) s

/-- A counter field (R179). -/
def counters (l : List Nat) : List Octet := l.flatMap u16

/-- A flag of a state listed second, coded 1; of the one listed first, 0. -/
def secondIf (b : Bool) : List Octet := u8 b.toNat

/-! ## IDENT and PARAM (R182) -/

/-- Vendor code 0x0B17, part code 4216, revision 1. -/
def identItem (n : Nat) (_clear : Bool) (s : State) : ReadItem :=
  if n = 0 then some (u16 0x0B17 ++ u16 4216 ++ u16 1, s) else none

/-- Item 0 the deferred-response slot and the four counters, item n parameter n: its number in two octets and its value, sets
too, in four, as in the answer of CONFIGURE (DESIGN CHOICE, assumption 9). -/
def paramItem (n : Nat) (clear : Bool) (s : State) : ReadItem :=
  if n = 0 then
    some (optional 1 (fun t => [t]) s.mgmt.deferred
        ++ counters [s.mgmt.executed, s.mgmt.refused, s.mgmt.lostResponses, s.mgmt.lostNotices],
      if clear then s.modMgmt fun m => { m with executed := 0, refused := 0, lostResponses := 0, lostNotices := 0 }
      else s)
  else if n ≤ 31 then some (u16 n ++ i32 (s.param n), s)
  else none

/-! ## CLOCK (R23) -/

/-- The frame source in force, TRUNK in SYNC, else LOCAL (R3); coded in that order. -/
def frameSource (s : State) : List Octet := secondIf (!s.ports[trunkPort].up)

def clockItem (n : Nat) (clear : Bool) (s : State) : ReadItem :=
  let c := s.clock
  match n with
  | 0 => some (u32 c.timeOfDay ++ u16 c.day.toNat ++ u8 c.weekday ++ u8 c.state.code ++ frameSource s, s)
  | 1 => some (i32 c.correction ++ u16 c.slewCounter ++ optional 4 (fun x : Word32 => u32 x.toNat) c.lastAccept
      ++ u32 s.elapsed.toNat, s)
  | 2 => some (counters [c.sets, c.steps, c.slews, c.holdovers],
      if clear then s.modClock fun x => { x with sets := 0, steps := 0, slews := 0, holdovers := 0 } else s)
  | _ => none

/-! ## SCHEDULE, ENTRY and HOLIDAYS (R46, R64) -/

/-- Item 0 gives the roles of the banks as two octets, that of A and then that of B, and the entry counts of A and then of B
(DESIGN CHOICE, assumption 10). -/
def scheduleItem (n : Nat) (clear : Bool) (s : State) : ReadItem :=
  let x := s.sched
  match n with
  | 0 => some (secondIf (!x.aActive) ++ secondIf x.aActive ++ u8 x.cursor ++ u16 x.cursorDay.toNat ++ u8 x.cursorWeekday
      ++ secondIf x.commitPending ++ u16 (Bank.entries x.bankA).length ++ u16 (Bank.entries x.bankB).length, s)
  | 1 => some (counters [x.fired, x.withheld, x.skipped, x.noPattern],
      if clear then s.modSched fun y => { y with fired := 0, withheld := 0, skipped := 0, noPattern := 0 } else s)
  | 2 => some (optional 9 (fun f : Firing =>
      u8 f.slot ++ u16 f.day.toNat ++ u32 f.second ++ flag f.catchUp ++ u8 f.outcome.code) x.lastFiring, s)
  | _ => none

/-- The fields of an entry with its fired-day stamp (R46). -/
def Entry.fields (e : Entry) : List Octet :=
  u32 e.second ++ u8 e.days.toNat ++ u16 e.zones.toNat ++ u8 e.pattern ++ u8 e.priority ++ flag e.holidaySkip
    ++ flag e.catchUp ++ optional 2 (fun d : Day => u16 d.toNat) e.fired

def entryItem (n : Nat) (_clear : Bool) (s : State) : ReadItem :=
  if n < 128 then some (u8 0 ++ optional 14 Entry.fields s.sched.activeBank[Fin.ofNat 128 n], s)
  else if n < 256 then some (u8 1 ++ optional 14 Entry.fields s.sched.stagedBank[Fin.ofNat 128 (n - 128)], s)
  else none

def holidaysItem (n : Nat) (_clear : Bool) (s : State) : ReadItem :=
  if n < 8 then
    some (u16 s.sched.holidays.length
      ++ (List.range 4).flatMap fun j => optional 2 (fun d : Day => u16 d.toNat) s.sched.holidays[4 * n + j]?, s)
  else none

/-! ## PATTERN, GENERATOR and BELL QUEUE (R42) -/

/-- The header of a pattern: part 0. -/
def Pattern.header (p : Pattern) : List Octet :=
  u16 p.toneA ++ optional 2 u16 p.toneB ++ u16 p.amplitude ++ secondIf p.inverted ++ u16 p.repeatCount
    ++ u16 p.steps.length

/-- Four steps of a pattern from a position on: parts 1 and 2. -/
def Pattern.stepFields (first : Nat) (p : Pattern) : List Octet :=
  (List.range 4).flatMap fun j => optional 3 (fun x : PatStep => u8 x.kind.code ++ u16 x.units) p.steps[first + j]?

def patternItem (n : Nat) (_clear : Bool) (s : State) : ReadItem :=
  let p := s.arb.pattern (n % 16)
  match n / 16 with
  | 0 => some (optional 12 Pattern.header p, s)
  | 1 => some (optional 16 (Pattern.stepFields 0) p, s)
  | 2 => some (optional 16 (Pattern.stepFields 4) p, s)
  | _ => none

/-- 'The page or the origin' stands as two fields, the page and then the origin, each behind its own presence octet (DESIGN
CHOICE, assumption 10). -/
def generatorItem (n : Nat) (_clear : Bool) (s : State) : ReadItem :=
  if h : n < 5 then
    let g := s.gens[n]
    some (secondIf g.running ++ u8 g.use.code ++ secondIf g.held ++ u8 g.pattern ++ u8 g.priority ++ u16 g.zones.toNat
      ++ u8 g.stepIndex ++ u16 g.remaining ++ g.repeats.field ++ optional 1 (fun p : Fin 8 => u8 p.val) g.page
      ++ optional 1 (fun o : Origin => u8 o.code) g.origin, s)
  else none

/-- An entry of the bell queue with the time it has waited. -/
def BellReq.fields (now : Word32) (r : BellReq) : List Octet :=
  u16 r.zones.toNat ++ u8 r.pattern ++ u8 r.priority ++ u8 r.origin.code ++ u32 (since now r.stamp)

/-- A position holds an entry, or, beyond the queue, the present length in place of one. -/
def bellQueueItem (n : Nat) (clear : Bool) (s : State) : ReadItem :=
  let a := s.arb
  if n < 8 then
    some (optional 9 (BellReq.fields s.elapsed) a.queue[n]?
      ++ optional 2 u16 (if n < a.queue.length then none else some a.queue.length), s)
  else if n = 8 then
    some (counters [a.started, a.merged, a.queued, a.queueMerged, a.fullDrop],
      if clear then s.modArb fun x => { x with started := 0, merged := 0, queued := 0, queueMerged := 0, fullDrop := 0 }
      else s)
  else if n = 9 then
    some (counters [a.lateDiscard, a.emptyDiscard, a.chimesStarted, a.chimesRefused],
      if clear then s.modArb fun x => { x with lateDiscard := 0, emptyDiscard := 0, chimesStarted := 0, chimesRefused := 0 }
      else s)
  else none

/-! ## ZONE and PAGE (R91, R103) -/

/-- The owner's claimant number and priority. -/
def ownerField (z : Fin 16) (s : State) : List Octet :=
  optional 2 (fun c : Fin 13 => u8 c.val ++ u8 ((s.ownerPriority z).getD 0)) s.zones[z].owner

/-- A READ of a zone's clip counter in a frame in which that zone is saturated: the frame's clip counts come before it, or
are left for after it, by a free choice (R102; assumption 32). -/
def State.orderClips (z : Fin 16) (s : State) : State :=
  if s.clipDue.getLsbD z.val then
    (if Config.clipsFirst s.choices then countClips s else s).setChoices (s.choices + 1)
  else s

def zoneItem (n : Nat) (clear : Bool) (s : State) : ReadItem :=
  let z : Fin 16 := Fin.ofNat 16 n
  let k := s.zones[z]
  match n / 16 with
  | 0 => some (u8 k.mode.code ++ u8 (s.floor z) ++ ownerField z s ++ u16 (s.waitSet z).toNat ++ u8 k.power.code
      ++ u8 k.test.code ++ u8 k.health.code ++ flag k.healthLatch, s.modZone z fun x => { x with healthLatch := false })
  | 1 => some (optional 1 (fun p : Fin 8 => u8 p.val) k.background ++ u16 k.ga ++ u16 k.gb ++ u16 k.depth ++ u16 k.duck,
      s)
  | 2 =>
    let t := s.orderClips z
    some (counters [k.filtered, t.zones[z].clip, k.unconfirmed],
      if clear then t.modZone z fun x => { x with filtered := 0, clip := 0, unconfirmed := 0 } else t)
  | _ =>
    if n = 48 then
      some (counters [s.za.strayReady], if clear then s.modZa fun x => { x with strayReady := 0 } else s)
    else none

def pageItem (n : Nat) (_clear : Bool) (s : State) : ReadItem :=
  let p : Fin 8 := Fin.ofNat 8 n
  let g := s.pages[p]
  match n / 8 with
  | 0 => some (u8 g.state.code ++ u8 g.priority ++ u16 g.wanted.toNat ++ u16 (s.granted p).toNat ++ optional 1 u8 g.chime
      ++ optional 1 (fun k : Fin 4 => u8 k.val) g.chimeGen ++ flag g.chimeSkipped ++ flag g.allOrNone
      ++ flag g.silenceClose, s)
  | 1 => some (u32 (since s.elapsed g.openStamp) ++ [g.tag] ++ u16 s.detectors[p].envelope
      ++ u8 (levelCode s.detectors[p].active) ++ sinceField s.elapsed g.silenceStamp, s)
  | _ => none

/-! ## ROOM (R130) -/

/-- The poll's room and phase, QUEUED then OUTSTANDING. -/
def Poll.fields (p : Poll) : List Octet := u8 p.room.val ++ secondIf p.departed.isSome

/-- The record of a room. -/
def Room.fields (now : Word32) (r : Room) : List Octet :=
  flag (decide (r.state ≠ .absent)) ++ u8 r.state.code ++ optional 4 i32 r.lastError ++ u16 r.missed ++ u16 r.corrections
    ++ sinceField now r.lastReply

/-- The poll record of a leg. The poll's room and phase stand behind one presence octet, and the voided flag, which belongs
to the poll, is sent as 0 where there is none (DESIGN CHOICE, assumption 10). -/
def pollFields (leg : Fin 4) (s : State) : List Octet :=
  let l := s.polls[leg]
  let d := l.poll.bind Poll.departed
  u32 (s.expectedSet leg).toNat ++ optional 1 (fun r : Fin 32 => u8 r.val) l.lastPolled ++ optional 2 Poll.fields l.poll
    ++ flag (l.poll.any Poll.voided) ++ sinceField s.elapsed (d.map Departure.stamp)
    ++ optional 4 u32 (d.map Departure.time) ++ flag l.owed

/-- A leg's eight counters at 0. -/
def LegPoll.clear (l : LegPoll) : LegPoll :=
  { l with departed := 0, taken := 0, misses := 0, late := 0, voided := 0, refused := 0, setsQueued := 0,
           setsRefused := 0 }

def roomItem (n : Nat) (clear : Bool) (s : State) : ReadItem :=
  if n < 128 then some (s.rooms[Fin.ofNat 128 n].fields s.elapsed, s)
  else if n < 132 then some (pollFields (Fin.ofNat 4 n) s, s)
  else if n < 136 then
    let leg : Fin 4 := Fin.ofNat 4 n
    let l := s.polls[leg]
    some (counters [l.departed, l.taken, l.misses, l.late, l.voided, l.refused, l.setsQueued, l.setsRefused],
      if clear then s.modPoll leg LegPoll.clear else s)
  else none

/-! ## LEG and TRUNK (R115, R176) -/

/-- The urgent cells of a queue. -/
def Port.urgentCount (p : Port) : Nat := (p.queue.filter QCell.urgent).length

/-- Sync state and counts of a port: DOWN or HUNT is listed first. -/
def Port.syncFields (p : Port) : List Octet := secondIf p.up ++ u16 p.bad ++ u16 p.good

/-- Assembler and transmitter states, queue length and urgent cells of a port. -/
def Port.queueFields (p : Port) : List Octet :=
  secondIf (!p.assembler.pieces.isEmpty) ++ secondIf p.tx.isSome ++ u16 p.queue.length ++ u16 p.urgentCount

def Port.linkCounters (p : Port) : List Octet := counters [p.badFrames, p.syncLosses, p.received, p.assemblyErrors]

def Port.clearLink (p : Port) : Port := { p with badFrames := 0, syncLosses := 0, received := 0, assemblyErrors := 0 }

def Port.queueCounters (p : Port) : List Octet := counters [p.accepted, p.gathered, p.departed, p.dropped, p.evicted]

def Port.clearQueue (p : Port) : Port :=
  { p with accepted := 0, gathered := 0, departed := 0, dropped := 0, evicted := 0, downRefused := 0 }

/-- A measurement slot with the impedance codes of the leg's four zones and the six counters. -/
def measFields (leg : Fin 4) (s : State) : List Octet :=
  let m := s.meas[leg]
  secondIf m.zone.isSome ++ optional 1 (fun k : Fin 4 => u8 (zoneOf leg k).val) m.zone ++ [m.number]
    ++ sinceField s.elapsed m.departure ++ sinceField s.elapsed m.retry
    ++ (List.finRange 4).flatMap (fun k => optional 1 (fun i => [i]) s.zones[zoneOf leg k].impedance)
    ++ counters [m.started, m.completed, m.timedOut, m.aborted, m.refused, m.stray]

def MeasSlot.clear (m : MeasSlot) : MeasSlot :=
  { m with started := 0, completed := 0, timedOut := 0, aborted := 0, refused := 0, stray := 0 }

def legItem (n : Nat) (clear : Bool) (s : State) : ReadItem :=
  let leg : Fin 4 := Fin.ofNat 4 n
  let p := s.ports[legPort leg]
  match n / 4 with
  | 0 => some (p.syncFields ++ p.queueFields, s)
  | 1 => some (measFields leg s, if clear then s.modMeas leg MeasSlot.clear else s)
  | 2 => some (p.linkCounters, if clear then s.modPort (legPort leg) Port.clearLink else s)
  | 3 => some (p.queueCounters ++ u16 p.downRefused, if clear then s.modPort (legPort leg) Port.clearQueue else s)
  | _ => none

/-- The four fields of a dispatch entry: FORWARD, URGENT and YES are listed first (R165). -/
def DispatchEntry.fields (e : DispatchEntry) : List Octet :=
  secondIf (!e.down) ++ secondIf (!e.up) ++ secondIf (!e.urgent) ++ secondIf (!e.withhold)

def trunkItem (n : Nat) (clear : Bool) (s : State) : ReadItem :=
  let p := s.ports[trunkPort]
  match n with
  | 0 => some (p.syncFields ++ frameSource s ++ p.queueFields, s)
  | 1 => some (p.linkCounters, if clear then s.modPort trunkPort Port.clearLink else s)
  | 2 => some (p.queueCounters, if clear then s.modPort trunkPort Port.clearQueue else s)
  | 3 => some (counters [s.disp.misaddressed, s.disp.unknown, s.disp.tableDropped, s.disp.withheld],
      if clear then s.modDisp fun _ => { misaddressed := 0, unknown := 0, tableDropped := 0, withheld := 0 } else s)
  | _ => if 0x40 ≤ n ∧ n ≤ 0xFF then some (s.table[Fin.ofNat 192 (n - 0x40)].fields, s) else none

/-! ## DRILL, MUSTER and INPUTS (R134, R154) -/

/-- The first part of the drill record: origin, opening tag, start day and time, parameters. -/
def DrillRecord.firstFields (r : DrillRecord) : List Octet :=
  secondIf r.byKey ++ optional 1 (fun t => [t]) r.tag ++ startTimeField r.startTime ++ u16 r.prealert ++ u16 r.target
    ++ u16 r.staff.toNat ++ flag r.autoHold

/-- The rest of the drill record. -/
def DrillRecord.restFields (r : DrillRecord) : List Octet :=
  optional 4 (fun x : Word32 => u32 x.toNat) r.evacStart ++ optional 4 u32 r.holdReached
    ++ optional 1 (fun c : HoldCause => u8 c.code) r.holdCause ++ optional 1 (fun c : EndReason => u8 c.code) r.endReason
    ++ u16 r.musterCount ++ u16 r.clearedCount ++ optional 4 u32 r.lastClear
    ++ optional 1 (fun b : Bool => secondIf (!b)) r.allCleared ++ u16 r.bellsWithheld
    ++ optional 2 (fun z : ZoneSet => u16 z.toNat) r.faulted

def drillItem (n : Nat) (clear : Bool) (s : State) : ReadItem :=
  let d := s.drill
  match n with
  | 0 => some (u8 d.state.code ++ optional 1 (fun c : Cause => u8 c.code) d.cause ++ u32 (since s.elapsed d.entryStamp)
      ++ d.elapsedField ++ u8 d.owed.toNat, s)
  | 1 => some (optional 17 DrillRecord.firstFields d.record, s)
  | 2 => some (optional 30 DrillRecord.restFields d.record, s)
  | 3 => some (counters [d.drillsStarted, d.alarmOnsets, d.clearsRepeated, d.clearsStray],
      if clear then s.modDrill fun x => { x with drillsStarted := 0, alarmOnsets := 0, clearsRepeated := 0, clearsStray := 0 }
      else s)
  | _ => none

/-- An entry of the muster list: room number, cleared time or absent. -/
def MusterEntry.fields (e : MusterEntry) : List Octet := u8 e.room ++ optional 4 u32 e.cleared

/-- Each position stands as one entry behind a presence octet of its own, zeros of the entry's length where it is absent. The
muster count is a field of the drill record; where there is no record, which R154 leaves open, it is sent as 0, without a
presence octet (DESIGN CHOICE, assumption 10). -/
def musterItem (n : Nat) (_clear : Bool) (s : State) : ReadItem :=
  if n < 32 then
    some (u16 ((s.drill.record.map DrillRecord.musterCount).getD 0)
      ++ (List.range 4).flatMap fun j => optional 6 MusterEntry.fields s.drill.muster[4 * n + j]?, s)
  else none

/-- The record of an input. -/
def Input.fields (now : Word32) (x : Input) : List Octet :=
  u8 (levelCode x.raw) ++ u8 (levelCode x.level) ++ u32 (since now x.changeStamp) ++ flag x.latch ++ flag x.rise
    ++ flag x.fall

/-- The four inputs; every latch returned is cleared. -/
def inputsItem (n : Nat) (_clear : Bool) (s : State) : ReadItem :=
  if n = 0 then
    some ((List.finRange 4).flatMap (fun i => s.inputs[i].fields s.elapsed),
      (List.finRange 4).foldl (fun t i => t.modInput i fun x => { x with latch := false }) s)
  else none

/-! ## The rows -/

/-- READ_IDENT (R182). -/
def execReadIdent (tag : Octet) (item : Word16) (clear : Bool) (s : State) : Outcome :=
  .next (s.onCommand (.readIdent tag item clear) (readGroup tag identItem item clear))

/-- READ_CLOCK (R23). -/
def execReadClock (tag : Octet) (item : Word16) (clear : Bool) (s : State) : Outcome :=
  .next (s.onCommand (.readClock tag item clear) (readGroup tag clockItem item clear))

/-- READ_SCHEDULE (R64). -/
def execReadSchedule (tag : Octet) (item : Word16) (clear : Bool) (s : State) : Outcome :=
  .next (s.onCommand (.readSchedule tag item clear) (readGroup tag scheduleItem item clear))

/-- READ_ENTRY (R46). -/
def execReadEntry (tag : Octet) (item : Word16) (clear : Bool) (s : State) : Outcome :=
  .next (s.onCommand (.readEntry tag item clear) (readGroup tag entryItem item clear))

/-- READ_HOLIDAYS (R64). -/
def execReadHolidays (tag : Octet) (item : Word16) (clear : Bool) (s : State) : Outcome :=
  .next (s.onCommand (.readHolidays tag item clear) (readGroup tag holidaysItem item clear))

/-- READ_PATTERN (R42). -/
def execReadPattern (tag : Octet) (item : Word16) (clear : Bool) (s : State) : Outcome :=
  .next (s.onCommand (.readPattern tag item clear) (readGroup tag patternItem item clear))

/-- READ_GENERATOR (R42). -/
def execReadGenerator (tag : Octet) (item : Word16) (clear : Bool) (s : State) : Outcome :=
  .next (s.onCommand (.readGenerator tag item clear) (readGroup tag generatorItem item clear))

/-- READ_BELL_QUEUE (R42). -/
def execReadBellQueue (tag : Octet) (item : Word16) (clear : Bool) (s : State) : Outcome :=
  .next (s.onCommand (.readBellQueue tag item clear) (readGroup tag bellQueueItem item clear))

/-- READ_ZONE (R91, R103). -/
def execReadZone (tag : Octet) (item : Word16) (clear : Bool) (s : State) : Outcome :=
  .next (s.onCommand (.readZone tag item clear) (readGroup tag zoneItem item clear))

/-- READ_PAGE (R91). -/
def execReadPage (tag : Octet) (item : Word16) (clear : Bool) (s : State) : Outcome :=
  .next (s.onCommand (.readPage tag item clear) (readGroup tag pageItem item clear))

/-- READ_ROOM (R130). -/
def execReadRoom (tag : Octet) (item : Word16) (clear : Bool) (s : State) : Outcome :=
  .next (s.onCommand (.readRoom tag item clear) (readGroup tag roomItem item clear))

/-- READ_LEG (R115, R176). -/
def execReadLeg (tag : Octet) (item : Word16) (clear : Bool) (s : State) : Outcome :=
  .next (s.onCommand (.readLeg tag item clear) (readGroup tag legItem item clear))

/-- READ_TRUNK (R176). -/
def execReadTrunk (tag : Octet) (item : Word16) (clear : Bool) (s : State) : Outcome :=
  .next (s.onCommand (.readTrunk tag item clear) (readGroup tag trunkItem item clear))

/-- READ_DRILL (R154). -/
def execReadDrill (tag : Octet) (item : Word16) (clear : Bool) (s : State) : Outcome :=
  .next (s.onCommand (.readDrill tag item clear) (readGroup tag drillItem item clear))

/-- READ_MUSTER (R154). -/
def execReadMuster (tag : Octet) (item : Word16) (clear : Bool) (s : State) : Outcome :=
  .next (s.onCommand (.readMuster tag item clear) (readGroup tag musterItem item clear))

/-- READ_INPUTS (R134). -/
def execReadInputs (tag : Octet) (item : Word16) (clear : Bool) (s : State) : Outcome :=
  .next (s.onCommand (.readInputs tag item clear) (readGroup tag inputsItem item clear))

/-- READ_PARAM (R182). -/
def execReadParam (tag : Octet) (item : Word16) (clear : Bool) (s : State) : Outcome :=
  .next (s.onCommand (.readParam tag item clear) (readGroup tag paramItem item clear))

/-- READ_UNKNOWN_GROUP (R181): FIELD without data. -/
def execReadUnknownGroup (tag group : Octet) (item : Word16) (clear : Bool) (s : State) : Outcome :=
  .next (s.onCommand (.readUnknownGroup tag group item clear) (answerRead tag none))

end Sys2Proof.Machine
end

