-- ==== Sys2Proof/Machine/Links.lean ====
section
/-!
DEFINITION. The links: sync changes of the trunk and the legs, the flush of a leg's queue, and the departure of a cell
(9.1, 9.2, 9.6).
-/
namespace Sys2Proof.Machine

/-! ## Assembler and sync state (R156, R158, R159) -/

/-- The pieces of a cell being assembled are discarded, and counted as an assembly error where there are any (R159). -/
def Port.discard (p : Port) : Port :=
  if p.assembler.pieces.isEmpty then p
  else { p with assembler := { pieces := [], capture := Capture.none }, assemblyErrors := bump p.assemblyErrors }

/-- The sync state changes: both counts at 0, a cell being assembled discarded; a loss of sync is counted (R156). -/
def Port.setSync (up : Bool) (p : Port) : Port :=
  let q := { p.discard with up, bad := 0, good := 0 }
  if up then q else { q with syncLosses := bump q.syncLosses }

/-- The data of TRUNK-STATE and LEG-STATE: old and new state, HUNT or DOWN coded 0, SYNC or UP coded 1. -/
def syncData (up : Bool) : List Octet := u8 (!up).toNat ++ u8 up.toNat

/-- A change of the trunk's sync state (R156). -/
def changeTrunk (up : Bool) (s : State) : State :=
  notify .trunkState 0 (syncData up) (s.modPort trunkPort (Port.setSync up))

/-- TRUNK_SYNC_LOSS (R156): the fourth consecutive bad trunk frame. -/
def execTrunkSyncLoss (s : State) : Outcome := .next (s.onEvent .trunkSyncLoss (changeTrunk false))

/-- TRUNK_SYNC_GAIN (R156): the second good trunk frame one period after the first. -/
def execTrunkSyncGain (s : State) : Outcome := .next (s.onEvent .trunkSyncGain (changeTrunk true))

/-! ## A leg goes DOWN or comes UP (R158, R172, R174) -/

/-- A flushed cell counts as dropped and its maker is told. A LINE TEST is left to step 3 of R158, where the Line
Supervisor aborts its test (R112). -/
def flushCell (leg : Fin 4) (c : QCell) (s : State) : State :=
  let t := s.modPort (legPort leg) fun p => { p with dropped := bump p.dropped }
  if c.cell.kind = kindLineTest then t else tellLegLoss leg c.cell t

/-- The flush of a leg's queue, oldest cell first, with its QUEUE-LOSS where it removed a cell (R173, R174). -/
def flushLeg (leg : Fin 4) (s : State) : State :=
  let q := s.ports[legPort leg].queue
  let t := q.foldl (fun u c => flushCell leg c u) (s.modPort (legPort leg) fun p => { p with queue := [] })
  match q.getLast? with
  | some c => queueLoss (legPort leg) .flush c.cell.kind t
  | none => t

/-- The change to DOWN, in the order of R158. -/
def legDown (leg : Fin 4) (s : State) : State :=
  let t := flushLeg leg (s.modPort (legPort leg) (Port.setSync false))
  let u := abortTestByLeg leg (t.modPoll leg fun l => { l with poll := none })
  notify .legState leg.val (syncData false) u

/-- LEG_DOWN (R158): the fourth consecutive bad frame of a leg. -/
def execLegDown (leg : Fin 4) (s : State) : Outcome := .next (s.onEvent (.legDown leg) <| asEvent (legDown leg))

/-- The change to UP: LEG-STATE, then the clock broadcast where the clock is not UNSET (R127), then DRILL STATE where R151
calls for it. -/
def legUp (leg : Fin 4) (s : State) : State :=
  let t := notify .legState leg.val (syncData true) (s.modPort (legPort leg) (Port.setSync true))
  let u := if t.clock.state = .unset then t else offerBroadcast leg t
  if u.drill.state ≠ .idle ∨ u.drill.owed.getLsbD leg.val then offerDrillState leg u else u

/-- LEG_UP (R158): the second good frame of a leg, one period after the first. -/
def execLegUp (leg : Fin 4) (s : State) : Outcome := .next (s.onEvent (.legUp leg) (legUp leg))

/-! ## Departure (R160, R170, R171) -/

/-- The octets from position n on, numbered 4 to 15, take new values. -/
def fillCell (c : Cell) (n : Nat) (data : List Octet) : Cell :=
  { c with payload := payloadOf (c.payload.toList.take (n - 4) ++ data ++ c.payload.toList.drop (n - 4 + data.length)) }

/-- The elapsed seconds of a DRILL STATE: 0 where the carried state is IDLE, ALARM or ALARM-SILENCED, or there is no drill
elapsed time (R151). -/
def Drill.elapsedSeconds (carried : Octet) (d : Drill) : Nat :=
  if carried.toNat = DrillState.idle.code ∨ DrillState.alarm.code ≤ carried.toNat then 0 else d.elapsed.getD 0 / 1000

/-- The departure-filled fields of a cell (R171). -/
def fillDeparture (s : State) (c : Cell) : Cell :=
  if c.kind = kindClockSet then
    fillCell c 4 (u32 s.clock.timeOfDay ++ u16 s.clock.day.toNat ++ u8 s.clock.weekday
      ++ flag (decide (s.clock.state = .holdover)))
  else if c.kind = kindDrillState then fillCell c 7 (u32 (s.drill.elapsedSeconds (c.octet 4)))
  else c

/-- A CLOCK POLL departs: the poll becomes OUTSTANDING with its departure stamp and time (R120). -/
def LegPoll.depart (now : Word32) (time : Nat) (l : LegPoll) : LegPoll :=
  match l.poll with
  | some p =>
    { l with poll := some { p with departed := some ⟨now, time⟩ }, lastPolled := some p.room,
             departed := bump l.departed }
  | none => l

/-- A LINE TEST departs: the test of that number in the slot takes its departure stamp (R108). -/
def MeasSlot.depart (now : Word32) (number : Octet) (m : MeasSlot) : MeasSlot :=
  if m.zone.isSome ∧ m.number = number then { m with departure := some now } else m

/-- The makers that time their work from departure are told (R171). -/
def tellDeparture (p : Fin 5) (c : Cell) (s : State) : State :=
  match portLeg p with
  | some leg =>
    if c.kind = kindClockPoll then s.modPoll leg (LegPoll.depart s.elapsed s.clock.timeOfDay)
    else if c.kind = kindLineTest then s.modMeas leg (MeasSlot.depart s.elapsed (c.octet 5))
    else s
  | none => s

/-- Piece k of a cell: its octets 4k to 4k + 3 (R155). -/
def pieceOf (c : Cell) (k : Nat) : Fragment := Vector.ofFn fun i => c.octets.getD (4 * k + i.val) 0

/-- The sync pattern of the frames that a port sends: trunk upstream or leg downstream (R155). -/
def sendPattern (p : Fin 5) : Word16 := if p = trunkPort then 0x29C0 else 0x4E50

/-- The control word of a frame that carries piece k of a cell: cell-valid, and cell-start with the first piece (R155). -/
def pieceControl (p : Fin 5) (k : Nat) : Word16 := sendPattern p ||| (if k = 0 then 3 else 1)

/-- Piece k of a cell stands in the present frame of a port. -/
def OutFrame.carry (p : Fin 5) (c : Cell) (k : Nat) (f : OutFrame) : OutFrame :=
  { f with control := pieceControl p k, fragment := pieceOf c k }

/-- A cell departs: it leaves the list and is counted, its fields are filled, the makers told, its first piece sent. -/
def departCell (p : Fin 5) (q : QCell) (rest : List QCell) (s : State) : State :=
  let c := fillDeparture s q.cell
  (tellDeparture p c (s.modPort p fun x =>
    { x with queue := rest, departed := bump x.departed, tx := some { cell := c, sent := 1 } })).modSending p
    (OutFrame.carry p c 0)

/-- The departure of a port whose link may carry a new cell, whose transmitter is IDLE and whose queue is not empty. -/
def depart (p : Fin 5) (s : State) : State :=
  if s.ports[p].up && s.ports[p].tx.isNone then
    match serve s.ports[p].queue with
    | some (q, rest) => departCell p q rest s
    | none => s
  else s

/-- CELL_DEPARTURE (R160, R170, R171). -/
def execCellDeparture (port : Fin 5) (s : State) : Outcome := .next (s.onEvent (.cellDeparture port) (depart port))

end Sys2Proof.Machine
end

