-- ==== Sys2Proof/Machine/Reset.lean ====
section
/-!
DEFINITION. RESET: the command reset of every block (10.6).
-/
namespace Sys2Proof.Machine

def kindReset : Octet := 0x04

/-- The generators are stopped, the bell queue emptied and the draft discarded (R41). -/
def resetArbiter (s : State) : State :=
  let t := (List.finRange 5).foldl (fun u g => stopGen g u) s
  t.modArb fun a => { a with queue := [], draft := none }

/-- Every page is freed and every claim withdrawn (R74, R153). -/
def resetPages (s : State) : State :=
  let t := (List.finRange 8).foldl (fun u p => u.modPage p fun g => { g with state := .free }) s
  (List.finRange 13).foldl (fun u c => withdrawClaim c u) t

/-- The tests end: test states NONE, slots IDLE, retry stamps absent (R104, R105). -/
def resetTests (s : State) : State :=
  let t := allZones.foldl (fun u z => u.modZone z fun k => { k with test := .none }) s
  (List.finRange 4).foldl (fun u l => u.modMeas l fun m => { m with zone := none, departure := none, retry := none }) t

/-- The pending commit is abandoned (R48). -/
def resetCommit (s : State) : State :=
  (s.modSched fun x => { x with commitPending := false }).modMgmt fun m => { m with deferred := none }

/-- Every poll is resolved (R128). -/
def resetPolls (s : State) : State := (List.finRange 4).foldl (fun u l => u.modPoll l LegPoll.commandReset) s

/-- The drill state becomes IDLE with every owed flag set, and PANEL ALARM's level INACTIVE without an edge (R132, R153). The
owed offers begin at the tick after the frame of the reset, so those of this frame no longer fall. -/
def resetDrill (s : State) : State :=
  let t := s.modDrill fun d => { d with state := .idle, entryStamp := s.elapsed, cause := none, owed := 0xF }
  let u := t.modInput 0 fun x => { x with level := false, changeStamp := s.elapsed }
  u.setDue (u.due.filter fun c => match c with | .drillStateOwedOffer _ => false | _ => true)

/-- The command reset of every block as one event, the zones re-evaluated at its end (R71, R184). -/
def commandReset (s : State) : State :=
  reevaluate s allZones (resetDrill (resetPolls (resetCommit (resetTests (resetPages (resetArbiter s))))))

/-- RESET (R184). -/
def execReset (tag : Octet) (s : State) : Outcome :=
  .next (s.onCommand (.reset tag) <| asEvent fun t => respond tag kindReset .done [] (commandReset t))

end Sys2Proof.Machine
end

