-- ==== Sys2Proof/Machine/Dispatcher.lean ====
section
/-!
DEFINITION. The Cell Dispatcher: DISPATCH WRITE, and the dispatch of a cell received from the trunk or from a leg (9.5).
-/
namespace Sys2Proof.Machine

def kindDispatchWrite : Octet := 0x1E

/-! ## DISPATCH WRITE (R166) -/

/-- Every entry from the first kind to the last takes one value. -/
def writeEntries (first last : Nat) (e : DispatchEntry) (t : Vector DispatchEntry 192) : Vector DispatchEntry 192 :=
  Vector.ofFn fun i => if first ≤ i.val + 0x40 ∧ i.val + 0x40 ≤ last then e else t[i]

/-- DISPATCH WRITE (R166). -/
def dispatchWrite (tag first last : Octet) (e : DispatchEntry) (s : State) : State :=
  if first.toNat < 0x40 ∨ last.toNat < first.toNat then respond tag kindDispatchWrite .field [] s
  else respond tag kindDispatchWrite .done (u16 (last.toNat - first.toNat + 1))
    (s.modTable (writeEntries first.toNat last.toNat e))

/-- DISPATCH_WRITE (R166). -/
def execDispatchWrite (tag first last : Octet) (down up urgent withhold : Bool) (s : State) : Outcome :=
  .next (s.onCommand (.dispatchWrite tag first last down up urgent withhold)
    (dispatchWrite tag first last { down, up, urgent, withhold }))

/-! ## A command cell handed to the Management Engine (R163) -/

/-- The state after a command of the head-end; every other row leaves it as it is. -/
def performCommand (c : Instr) (s : State) : State :=
  match c with
  | .lineReset _ => s
  | .frame _ => s
  | .millisecondTick => s
  | .clockTick => s
  | .slewTick => s
  | .holdoverExpiry => s
  | .generatorStepEnd _ => s
  | .pageMaxTime _ => s
  | .pageSilence _ => s
  | .ampRest => s
  | .ampWakeLimit => s
  | .lineTestStart _ => s
  | .testTimeout _ => s
  | .pollPoint _ => s
  | .replyTimeout => s
  | .clockStateBroadcast => s
  | .drillStateOwedOffer _ => s
  | .inputEdge _ => s
  | .prealertExpiry => s
  | .evacuationToneLimit => s
  | .trunkSyncLoss => s
  | .trunkSyncGain => s
  | .legDown _ => s
  | .legUp _ => s
  | .cellDeparture _ => s
  | .dispatchTrunkCell _ _ => s
  | .dispatchLegCell _ _ => s
  | .clockReply _ _ _ => s
  | .roomClear _ _ => s
  | .ampReady _ _ => s
  | .lineResult _ _ _ _ _ => s
  | .time tag tref dref wref force cap => s.after (execTime tag tref dref wref force cap s)
  | .configure tag number value op => s.after (execConfigure tag number value op s)
  | .configureStepThreshold tag value => s.after (execConfigureStepThreshold tag value s)
  | .configureSlewRate tag value => s.after (execConfigureSlewRate tag value s)
  | .configureDrillFloor tag value => s.after (execConfigureDrillFloor tag value s)
  | .configureDetectorThreshold tag high value => s.after (execConfigureDetectorThreshold tag high value s)
  | .configureEdgeEnables tag rise value op => s.after (execConfigureEdgeEnables tag rise value op s)
  | .readIdent tag item clear => s.after (execReadIdent tag item clear s)
  | .readClock tag item clear => s.after (execReadClock tag item clear s)
  | .readSchedule tag item clear => s.after (execReadSchedule tag item clear s)
  | .readEntry tag item clear => s.after (execReadEntry tag item clear s)
  | .readHolidays tag item clear => s.after (execReadHolidays tag item clear s)
  | .readPattern tag item clear => s.after (execReadPattern tag item clear s)
  | .readGenerator tag item clear => s.after (execReadGenerator tag item clear s)
  | .readBellQueue tag item clear => s.after (execReadBellQueue tag item clear s)
  | .readZone tag item clear => s.after (execReadZone tag item clear s)
  | .readPage tag item clear => s.after (execReadPage tag item clear s)
  | .readRoom tag item clear => s.after (execReadRoom tag item clear s)
  | .readLeg tag item clear => s.after (execReadLeg tag item clear s)
  | .readTrunk tag item clear => s.after (execReadTrunk tag item clear s)
  | .readDrill tag item clear => s.after (execReadDrill tag item clear s)
  | .readMuster tag item clear => s.after (execReadMuster tag item clear s)
  | .readInputs tag item clear => s.after (execReadInputs tag item clear s)
  | .readParam tag item clear => s.after (execReadParam tag item clear s)
  | .reset tag => s.after (execReset tag s)
  | .pageOpen tag channel prio zones chime chimeAbsent allOrNone silenceClose => s.after (execPageOpen tag channel prio zones chime chimeAbsent allOrNone silenceClose s)
  | .pageChangeWrite tag channel zones => s.after (execPageChangeWrite tag channel zones s)
  | .pageChangeSet tag channel zones => s.after (execPageChangeSet tag channel zones s)
  | .pageChangeClear tag channel zones => s.after (execPageChangeClear tag channel zones s)
  | .pageClose tag channel => s.after (execPageClose tag channel s)
  | .bellNow tag zones pattern prio => s.after (execBellNow tag zones pattern prio s)
  | .patternWriteDefine tag pattern toneA toneB amplitude inverted repeatCount stepCount => s.after (execPatternWriteDefine tag pattern toneA toneB amplitude inverted repeatCount stepCount s)
  | .patternWriteSteps tag first words count => s.after (execPatternWriteSteps tag first words count s)
  | .patternWriteStore tag => s.after (execPatternWriteStore tag s)
  | .patternWriteEmpty tag pattern => s.after (execPatternWriteEmpty tag pattern s)
  | .scheduleWriteEntry tag slot second days zones pattern prio holidaySkip catchUp => s.after (execScheduleWriteEntry tag slot second days zones pattern prio holidaySkip catchUp s)
  | .scheduleWriteEmpty tag slot => s.after (execScheduleWriteEmpty tag slot s)
  | .scheduleCommit tag => s.after (execScheduleCommit tag s)
  | .holidayWriteAdd tag day => s.after (execHolidayWriteAdd tag day s)
  | .holidayWriteRemove tag day => s.after (execHolidayWriteRemove tag day s)
  | .holidayWriteClear tag => s.after (execHolidayWriteClear tag s)
  | .zoneAudio tag zones ga gb channel noChannel depth => s.after (execZoneAudio tag zones ga gb channel noChannel depth s)
  | .zoneMode tag zones mode => s.after (execZoneMode tag zones mode s)
  | .supervise tag zones => s.after (execSupervise tag zones s)
  | .rosterWriteWrite tag leg rooms => s.after (execRosterWriteWrite tag leg rooms s)
  | .rosterWriteSet tag leg rooms => s.after (execRosterWriteSet tag leg rooms s)
  | .rosterWriteClear tag leg rooms => s.after (execRosterWriteClear tag leg rooms s)
  | .drillStart tag prealert target staff autoHold => s.after (execDrillStart tag prealert target staff autoHold s)
  | .drillHold tag => s.after (execDrillHold tag s)
  | .drillEnd tag => s.after (execDrillEnd tag s)
  | .alarmSilence tag => s.after (execAlarmSilence tag s)
  | .dispatchWrite tag first last down up urgent withhold => s.after (execDispatchWrite tag first last down up urgent withhold s)
  | .readUnknownGroup tag group item clear => s.after (execReadUnknownGroup tag group item clear s)
  | .patternWriteUnknownOperation tag op => s.after (execPatternWriteUnknownOperation tag op s)
  | .pageChangeUnknownOperation tag channel op zones => s.after (execPageChangeUnknownOperation tag channel op zones s)
  | .scheduleWriteUnknownOperation tag slot op => s.after (execScheduleWriteUnknownOperation tag slot op s)
  | .holidayWriteUnknownOperation tag op => s.after (execHolidayWriteUnknownOperation tag op s)
  | .rosterWriteUnknownOperation tag leg op rooms => s.after (execRosterWriteUnknownOperation tag leg op rooms s)

/-! ## Pass-through cells (R163 to R165, R167) -/

/-- Withheld cells are dropped in these drill states (R167). -/
def DrillState.withholdsCells : DrillState → Bool
  | .prealert | .evacuate | .alarm => true
  | .idle | .hold | .allclear | .alarmSilenced => false

/-- A cell is misaddressed: dropped and counted. -/
def misaddress (s : State) : State := s.modDisp fun d => { d with misaddressed := bump d.misaddressed }

/-- A cell is dropped by its dispatch entry and counted. -/
def tableDrop (s : State) : State := s.modDisp fun d => { d with tableDropped := bump d.tableDropped }

/-- A cell that its entry forwards: withheld, or offered to a queue with the entry's class. -/
def forward (p : Fin 5) (e : DispatchEntry) (c : Cell) (s : State) : State :=
  if e.withhold && s.drill.state.withholdsCells then s.modDisp fun d => { d with withheld := bump d.withheld }
  else (offer p { cell := c, urgent := e.urgent, maker := .dispatcher } s).1

/-- The dispatch entry of a cell's kind, as it stands. -/
def entryOf (c : Cell) (s : State) : DispatchEntry := s.table[tableIndex c.kind]

/-! ## Cells from the trunk (R163) -/

/-- The dispatch of a cell received from the trunk. -/
def dispatchTrunk (c : Cell) (cap : Capture) (s : State) : State :=
  if c.src ≠ headEndAddr ∨ validAddr c.dst = false ∨ c.dst = headEndAddr
      ∨ (c.dst ≠ switchAddr ∧ isPassThrough c.kind = false) then misaddress s
  else if c.dst = switchAddr then
    match decodeCommand c cap with
    | some i => performCommand i s
    | none =>
      if isPassThrough c.kind then misaddress s
      else respond c.tag c.kind .unknown [] (s.modDisp fun d => { d with unknown := bump d.unknown })
  else
    match legOfAddr c.dst with
    | some leg => if (entryOf c s).down then forward (legPort leg) (entryOf c s) c s else tableDrop s
    | none => misaddress s

/-- DISPATCH_TRUNK_CELL (R163). -/
def execDispatchTrunkCell (cell : Cell) (cap : Capture) (s : State) : Outcome :=
  .next (s.onCell (.dispatchTrunkCell cell cap) (dispatchTrunk cell cap))

/-! ## Cells from a leg (R164) -/

/-- One of the four protocol kinds of a building. -/
def isProtocolKind (k : Octet) : Bool := k == 0x2A || k == 0x2B || k == 0x32 || k == 0x34

/-- A protocol cell goes to its block when its source and destination are those of its kind, and is misaddressed
otherwise. -/
def performProtocol (leg : Fin 4) (c : Cell) (s : State) : State :=
  match decodeLegCell leg c with
  | .clockReply l r t => s.after (execClockReply l r t s)
  | .roomClear l r => s.after (execRoomClear l r s)
  | .ampReady l k => s.after (execAmpReady l k s)
  | .lineResult l k n cls i => s.after (execLineResult l k n cls i s)
  | _ => misaddress s

/-- A pass-through cell from a leg: to the head-end, or a hairpin to another leg. -/
def passFromLeg (leg : Fin 4) (c : Cell) (s : State) : State :=
  let e := entryOf c s
  if e.up = false then tableDrop s
  else if c.dst = headEndAddr then forward trunkPort e c s
  else
    match roomsLegOf c.dst with
    | some m =>
      if m = leg then misaddress s
      else if e.down then forward (legPort m) e c s else tableDrop s
    | none => misaddress s

/-- The dispatch of a cell received from a leg. -/
def dispatchLeg (leg : Fin 4) (c : Cell) (s : State) : State :=
  if ((roomOn leg c.src).isNone ∧ c.src ≠ ampAddr leg) ∨ validAddr c.dst = false then misaddress s
  else if 0x01 ≤ c.kind.toNat ∧ c.kind.toNat ≤ 0x1E then misaddress s
  else if isProtocolKind c.kind then performProtocol leg c s
  else if isPassThrough c.kind = false then s.modDisp fun d => { d with unknown := bump d.unknown }
  else passFromLeg leg c s

/-- DISPATCH_LEG_CELL (R164). -/
def execDispatchLegCell (leg : Fin 4) (cell : Cell) (s : State) : Outcome :=
  .next (s.onCell (.dispatchLegCell leg cell) (dispatchLeg leg cell))

end Sys2Proof.Machine
end

