-- ==== Sys2Proof/Machine/Frame.lean ====
section
/-!
DEFINITION. The switch frame: what it completes of the frame before, what every block does in it (generators, mixer,
detectors, contacts, links), and the events that it makes due; and the line reset.
-/
namespace Sys2Proof.Machine

/-! ## The events of a frame, performed -/

/-- The state after a command, an event or a cell that is not a frame or a line reset. -/
def perform (c : Instr) (s : State) : State :=
  match c with
  | .lineReset _ => s
  | .frame _ => s
  | .millisecondTick => s.after (execMillisecondTick s)
  | .clockTick => s.after (execClockTick s)
  | .slewTick => s.after (execSlewTick s)
  | .holdoverExpiry => s.after (execHoldoverExpiry s)
  | .generatorStepEnd g => s.after (execGeneratorStepEnd g s)
  | .pageMaxTime p => s.after (execPageMaxTime p s)
  | .pageSilence p => s.after (execPageSilence p s)
  | .ampRest => s.after (execAmpRest s)
  | .ampWakeLimit => s.after (execAmpWakeLimit s)
  | .lineTestStart leg => s.after (execLineTestStart leg s)
  | .testTimeout leg => s.after (execTestTimeout leg s)
  | .pollPoint leg => s.after (execPollPoint leg s)
  | .replyTimeout => s.after (execReplyTimeout s)
  | .clockStateBroadcast => s.after (execClockStateBroadcast s)
  | .drillStateOwedOffer leg => s.after (execDrillStateOwedOffer leg s)
  | .inputEdge i => s.after (execInputEdge i s)
  | .prealertExpiry => s.after (execPrealertExpiry s)
  | .evacuationToneLimit => s.after (execEvacuationToneLimit s)
  | .trunkSyncLoss => s.after (execTrunkSyncLoss s)
  | .trunkSyncGain => s.after (execTrunkSyncGain s)
  | .legDown leg => s.after (execLegDown leg s)
  | .legUp leg => s.after (execLegUp leg s)
  | .cellDeparture port => s.after (execCellDeparture port s)
  | .dispatchTrunkCell cell cap => s.after (execDispatchTrunkCell cell cap s)
  | .dispatchLegCell leg cell => s.after (execDispatchLegCell leg cell s)
  | .clockReply leg room troom => s.after (execClockReply leg room troom s)
  | .roomClear leg room => s.after (execRoomClear leg room s)
  | .ampReady leg slot => s.after (execAmpReady leg slot s)
  | .lineResult leg slot number cls impedance => s.after (execLineResult leg slot number cls impedance s)
  | c => performCommand c s

/-- Every event of the present frame that is still to be taken is taken, in the order in which it stands, what is left of
its clip counts is counted, and the frame is over (assumption 2). -/
def completeFrame (s : State) : State :=
  let t := s.settle
  countClips ((t.due.foldl (fun u c => if u.due.contains c then perform c u else u) t).setDue [])

/-! ## The ticks of a frame (R1, R7) -/

/-- The frame is a millisecond tick (R1). -/
def State.ticksMs (s : State) : Bool := s.tickPhase == 7

/-- The frame is a clock tick (R7). -/
def State.ticksClock (s : State) : Bool := decide (s.clock.state ≠ .unset) && s.clock.framePhase == 7

/-- The elapsed count of the frame, after its millisecond tick if it has one (R2). -/
def State.frameElapsed (s : State) : Word32 := if s.ticksMs then s.elapsed + 1 else s.elapsed

/-- The capture record of the frame, after its millisecond tick and its clock tick if it has them (R13). -/
def State.capture (s : State) : Capture :=
  let c := if s.ticksClock then s.clock.tick else s.clock
  { elapsed := s.frameElapsed, timeOfDay := c.timeOfDay, day := c.day }

/-- The tick phase advances; in the frame of a tick it becomes 0 when the tick is taken (R1). -/
def advanceTickPhase (s : State) : State := { s with tickPhase := if s.ticksMs then 7 else s.tickPhase + 1 }

/-- The frame phase advances while the clock is not UNSET; in the frame of a clock tick it becomes 0 when the tick is taken
(R7). -/
def advanceFramePhase (s : State) : State :=
  if s.clock.state = .unset then s
  else s.modClock fun c => { c with framePhase := if s.ticksClock then 7 else c.framePhase + 1 }

/-! ## Generators (R31, R34) -/

/-- The sample of a generator in a frame: a square wave, 0 in SILENCE, when IDLE and for EG on an empty pattern. -/
def Gen.sample (a : Arbiter) (g : Gen) : Int :=
  if g.running then
    match a.pattern g.pattern with
    | none => 0
    | some p =>
      match p.steps[g.stepIndex]? with
      | some ⟨.silence, _⟩ => 0
      | some _ => if xor (decide (32768 ≤ g.phase.toNat)) p.inverted then -(p.amplitude : Int) else p.amplitude
      | none => 0
  else 0

/-- After the sample P becomes P + increment modulo 65536; the increment of SILENCE is 0 (R31, R32). -/
def Gen.advance (g : Gen) : Gen := if g.running then { g with phase := g.phase + BitVec.ofNat 16 g.increment } else g

/-- The phases of the five generators advance. -/
def advanceGens (s : State) : State := { s with gens := Vector.ofFn fun g => s.gens[g].advance }

/-! ## The mix (R93 to R97, R100) -/

/-- The source samples of a frame: trunk channels and generators. -/
structure Sources where
  trunk : Vector Int 8
  gens : Vector Int 5
  deriving DecidableEq, Repr

/-- The owner sample of a zone (R94). -/
def ownerSample (s : State) (src : Sources) (z : Fin 16) : Int :=
  match s.zones[z].owner with
  | none => 0
  | some c =>
    if h : c.val < 8 then
      let p : Fin 8 := ⟨c.val, h⟩
      match s.pages[p].state, s.pages[p].chimeGen with
      | .live, _ => src.trunk[p]
      | .chiming, some g => src.gens[tgGen g]
      | _, _ => 0
    else if h : c.val - 8 < 5 then src.gens[c.val - 8] else 0

/-- The background sample of a zone (R95). -/
def backgroundSample (src : Sources) (z : Zone) : Int :=
  match z.background with
  | some c => src.trunk[c]
  | none => 0

/-- The unsaturated sample u (R96). -/
def mixUnsaturated (a b : Int) (ga gb d : Nat) : Int := (a * ga * 128 + b * gb * d + 8192) / 16384

/-- A sample held to the sample range (R97). -/
def saturate (u : Int) : Int := clampInt (-32768) 32767 u

/-- The zone's slot is forced to 0 (R100). -/
def muted (s : State) (z : Fin 16) : Bool :=
  let k := s.zones[z]
  decide (k.power = .waking) || decide (k.test = .testing)
    || (decide (k.health = .short) && (s.ownerPriority z).all fun n => decide (n < 14))

/-- The unsaturated sample of a zone in a frame. -/
def zoneUnsaturated (s : State) (src : Sources) (z : Fin 16) : Int :=
  let k := s.zones[z]
  mixUnsaturated (ownerSample s src z) (backgroundSample src k) k.ga k.gb k.duck

/-- The slot sample of a zone in a frame. -/
def zoneSample (s : State) (src : Sources) (z : Fin 16) : Int :=
  if muted s z then 0 else saturate (zoneUnsaturated s src z)

/-- The frame is a saturated one for a zone: u lies outside the sample range (R97). -/
def saturates (s : State) (src : Sources) (z : Fin 16) : Bool :=
  decide (saturate (zoneUnsaturated s src z) ≠ zoneUnsaturated s src z)

/-- The mix of a frame, formed from the zone conditions as they stood at the end of the frame before: the sixteen slot
samples, and the clip counts that it brings, which may come before or after a READ of the frame (R93, R97, R102). -/
def mixZones (src : Sources) (s : State) : State :=
  (s.setSlotSamples (Vector.ofFn fun z => zoneSample s src z)).setClipDue (setOf (saturates s src))

/-! ## Level detectors (R83, R85) -/

/-- The magnitude of a sample, −32768 taken as 32767. -/
def magnitude (x : Int) : Nat := min x.natAbs 32767

/-- A detector takes a sample. -/
def Detector.take (za : ZoneParams) (x : Int) (d : Detector) : Detector :=
  let m := magnitude x
  let e := if d.envelope ≤ m then m else d.envelope - (d.envelope + 255) / 256
  { envelope := e, active := if d.active then decide (za.detLow ≤ e) else decide (za.detHigh ≤ e) }

/-- A channel's detector takes its sample; a change to INACTIVE restamps the silence stamp of a LIVE page. -/
def detect (now : Word32) (src : Sources) (p : Fin 8) (s : State) : State :=
  let d := s.detectors[p]
  let e := d.take s.za src.trunk[p]
  let t := s.modDetector p fun _ => e
  if d.active && !e.active && decide (s.pages[p].state = .live) then
    t.modPage p fun g => { g with silenceStamp := some now }
  else t

/-! ## Contacts (R132) -/

/-- The raw level of a contact is sampled; a change takes a new change stamp. -/
def sampleContact (now : Word32) (contacts : InputSet) (i : Fin 4) (s : State) : State :=
  let raw := contacts.getLsbD i.val
  if s.inputs[i].raw = raw then s else s.modInput i fun x => { x with raw, changeStamp := now }

/-! ## Reception (R155 to R159) -/

/-- The sync pattern of the frames that a port receives: trunk downstream or leg upstream (R155). -/
def receivePattern (p : Fin 5) : Nat := if p = trunkPort then 0x6D3 else 0x35A

/-- The frame that arrived, none where it is missing. -/
def arrivedFrame {α : Type} : Arrival α → Option α
  | .missing => none
  | .arrived _ f => some f

/-- A received frame is good when it carries the pattern of its direction (R155). -/
def goodControl (p : Fin 5) (control : Word16) : Bool := control.toNat / 16 == receivePattern p

/-- The control word and the fragment of a trunk frame. -/
def cellPart (f : TrunkFrame) : LegFrame := { control := f.control, fragment := f.fragment }

/-- What arrives on the trunk, without its samples. -/
def trunkArrival : Arrival TrunkFrame → Arrival LegFrame
  | .missing => .missing
  | .arrived spaced f => .arrived spaced (cellPart f)

/-- A good frame has arrived at a port. -/
def arrivedGood (p : Fin 5) : Arrival LegFrame → Bool
  | .missing => false
  | .arrived _ f => goodControl p f.control

/-- The counts of consecutive good and bad frames after a frame (R156, R158). DESIGN CHOICE (assumption 35): a leg frame that
does not arrive while the leg is UP counts as a bad one, as R3 says of the trunk; and a switch frame in which a port out of
sync finds no frame at all is 'any other frame', which sets the good count to 0. -/
def Port.count (p : Fin 5) (a : Arrival LegFrame) (x : Port) : Port :=
  let ok := arrivedGood p a
  if x.up then (if ok then { x with bad := 0 } else { x with bad := x.bad + 1, badFrames := bump x.badFrames })
  else match ok, a with
  | true, .arrived true _ => { x with good := x.good + 1 }
  | true, _ => { x with good := 1 }
  | false, _ => { x with good := 0 }

/-- A cell of four pieces. -/
def cellOfPieces (l : List Fragment) : Cell := Cell.ofOctets (l.flatMap fun f => f.toList)

/-- The assembler takes a frame with its two flags, by the table of R159. The answer is the cell received with the fourth
piece, with its capture record. -/
def Port.assemble (cap : Capture) (valid start : Bool) (f : Fragment) (x : Port) : Port × Option (Cell × Capture) :=
  if !valid then (x.discard, none)
  else if start then ({ x.discard with assembler := { pieces := [f], capture := cap } }, none)
  else if x.assembler.pieces.isEmpty then ({ x with assemblyErrors := bump x.assemblyErrors }, none)
  else
    let l := x.assembler.pieces ++ [f]
    if l.length < 4 then ({ x with assembler := { x.assembler with pieces := l } }, none)
    else
      ({ x with assembler := { pieces := [], capture := Capture.none }, received := bump x.received },
        some (cellOfPieces l, x.assembler.capture))

/-- What a frame brings to the assembler of a port that is in sync: a bad frame counts as one with cell-valid clear; out of
sync nothing reaches the assembler (R157, R158). -/
def Port.receive (p : Fin 5) (cap : Capture) (a : Arrival LegFrame) (x : Port) : Port × Option (Cell × Capture) :=
  if x.up then
    match a with
    | .missing => (x.discard, none)
    | .arrived _ f =>
      if goodControl p f.control then x.assemble cap (f.control.getLsbD 0) (f.control.getLsbD 1) f.fragment
      else (x.discard, none)
  else (x, none)

/-- The event that the counts of a port have reached: the fourth bad frame in sync, the second good one out of it. -/
def syncEvent (p : Fin 5) (x : Port) : List Instr :=
  if x.up && decide (4 ≤ x.bad) then [match portLeg p with | some l => .legDown l | none => .trunkSyncLoss]
  else if !x.up && decide (2 ≤ x.good) then [match portLeg p with | some l => .legUp l | none => .trunkSyncGain]
  else []

/-- The row of the table that a received cell is (R163, R164). -/
def cellEvent (p : Fin 5) (r : Option (Cell × Capture)) : List Instr :=
  match r, portLeg p with
  | some (c, _), some leg => [decodeLegCell leg c]
  | some (c, cap), none => [decodeTrunkCell c cap]
  | none, _ => []

/-- What arrives at a port in a frame. -/
def arrivalAt (x : FrameInput) (p : Fin 5) : Arrival LegFrame :=
  match portLeg p with
  | some leg => x.legs[leg]
  | none => trunkArrival x.trunk

/-- A port takes its frame: counts and assembler, and the events that fall due. -/
def receive (input : FrameInput) (cap : Capture) (p : Fin 5) (s : State) : State :=
  let a := arrivalAt input p
  let r := s.ports[p].receive p cap a
  let x := Port.count p a r.1
  (s.modPort p fun _ => x).setDue (s.due ++ syncEvent p x ++ cellEvent p r.2)

/-- The samples of T0 to T7 in a frame: those of a good frame in SYNC, else 0 (R157). -/
def trunkSamples (input : FrameInput) (s : State) : Vector Int 8 :=
  match s.ports[trunkPort].up, arrivedFrame input.trunk with
  | true, some f => Vector.ofFn fun i => if goodControl trunkPort f.control then f.samples[i].toInt else 0
  | _, _ => Vector.replicate 8 0

/-! ## Sending (R101, R155, R160) -/

/-- The slot samples that a leg's frame carries: those computed in the frame before while the leg is UP, else zeros. -/
def slotsOf (s : State) (p : Fin 5) : List Int :=
  match portLeg p with
  | some leg => (List.finRange 4).map fun k => if s.ports[p].up then s.slotSamples[zoneOf leg k] else 0
  | none => []

/-- The frame that a port sends, without a cell piece. -/
def emptyFrame (s : State) (p : Fin 5) : OutFrame :=
  { control := sendPattern p, samples := slotsOf s p, fragment := Vector.replicate 4 0 }

/-- The frame that a port sends, with the next piece of the cell its transmitter is SENDING. -/
def nextFrame (s : State) (p : Fin 5) : OutFrame :=
  match s.ports[p].tx with
  | some t => (emptyFrame s p).carry p t.cell t.sent
  | none => emptyFrame s p

/-- The transmitter after the next piece: IDLE after the fourth. -/
def Port.sendPiece (x : Port) : Port :=
  { x with tx := x.tx.bind fun t => if t.sent + 1 < 4 then some { t with sent := t.sent + 1 } else none }

/-- The ports that are IDLE when the frame begins may have a departure in it (R160). -/
def departures (s : State) : List Instr :=
  ((List.finRange 5).filter fun p => s.ports[p].tx.isNone).map .cellDeparture

/-- The frames go out: those of the frame before are complete, the new ones carry the slots and the next pieces. -/
def sendFrames (s : State) : State :=
  { s with
    sent := s.sending
    sending := Vector.ofFn fun p => nextFrame s p
    ports := Vector.ofFn fun p => s.ports[p].sendPiece }

/-! ## FRAME (R3) -/

/-- The events that a frame makes due by itself: its ticks and the departures of IDLE ports. -/
def frameEvents (s : State) : List Instr :=
  (if s.ticksMs then [.millisecondTick] else []) ++ (if s.ticksClock then [.clockTick] else []) ++ departures s

/-- The audio of a frame: the mix, the phases of the generators, the detectors. -/
def frameAudio (input : FrameInput) (s : State) : State :=
  let src : Sources := { trunk := trunkSamples input s, gens := Vector.ofFn fun g => s.gens[g].sample s.arb }
  (List.finRange 8).foldl (fun t p => detect s.frameElapsed src p t) (advanceGens (mixZones src s))

/-- Reception on the five ports, the trunk last. -/
def frameReception (input : FrameInput) (s : State) : State :=
  let cap := s.capture
  (List.finRange 5).foldl (fun t p => receive input cap p t) s

/-- A switch frame begins: the events it makes due by itself, a new contest (R73), the frames it sends, its audio, the contacts, reception, and
the two phases. -/
def beginFrame (input : FrameInput) (s : State) : State :=
  let t := frameAudio input (sendFrames ((s.setDue (frameEvents s)).modContest fun _ => Contest.none))
  let u := (List.finRange 4).foldl (fun v i => sampleContact s.frameElapsed input.contacts i v) t
  advanceTickPhase (advanceFramePhase (frameReception input u))

/-- FRAME (R3): the frame before is completed, and a new one begins. -/
def execFrame (input : FrameInput) (s : State) : Outcome := .next (beginFrame input (completeFrame s))

/-! ## LINE_RESET (R185) -/

/-- LINE_RESET (R185): every block at its line-reset values, the raw levels as sampled (R132). The queue of commands and the
number of orders chosen, which are the model's own, stand. -/
def execLineReset (contacts : InputSet) (s : State) : Outcome :=
  .next { State.resetWith contacts with pending := s.pending, choices := s.choices }

end Sys2Proof.Machine
end

