-- ==== Sys2Proof/Machine/Dispatch.lean ====
section
/-!
DEFINITION. One arm per command: each calls the meaning of its row.
-/
namespace Sys2Proof.Machine

def exec (i : Instr) (s : State) : Host.Outcome State Fault Refusal :=
  match i with
  | .lineReset contacts => Sys2Proof.Machine.execLineReset contacts s
  | .frame input => Sys2Proof.Machine.execFrame input s
  | .millisecondTick => Sys2Proof.Machine.execMillisecondTick s
  | .clockTick => Sys2Proof.Machine.execClockTick s
  | .slewTick => Sys2Proof.Machine.execSlewTick s
  | .holdoverExpiry => Sys2Proof.Machine.execHoldoverExpiry s
  | .generatorStepEnd g => Sys2Proof.Machine.execGeneratorStepEnd g s
  | .pageMaxTime p => Sys2Proof.Machine.execPageMaxTime p s
  | .pageSilence p => Sys2Proof.Machine.execPageSilence p s
  | .ampRest => Sys2Proof.Machine.execAmpRest s
  | .ampWakeLimit => Sys2Proof.Machine.execAmpWakeLimit s
  | .lineTestStart leg => Sys2Proof.Machine.execLineTestStart leg s
  | .testTimeout leg => Sys2Proof.Machine.execTestTimeout leg s
  | .pollPoint leg => Sys2Proof.Machine.execPollPoint leg s
  | .replyTimeout => Sys2Proof.Machine.execReplyTimeout s
  | .clockStateBroadcast => Sys2Proof.Machine.execClockStateBroadcast s
  | .drillStateOwedOffer leg => Sys2Proof.Machine.execDrillStateOwedOffer leg s
  | .inputEdge c => Sys2Proof.Machine.execInputEdge c s
  | .prealertExpiry => Sys2Proof.Machine.execPrealertExpiry s
  | .evacuationToneLimit => Sys2Proof.Machine.execEvacuationToneLimit s
  | .trunkSyncLoss => Sys2Proof.Machine.execTrunkSyncLoss s
  | .trunkSyncGain => Sys2Proof.Machine.execTrunkSyncGain s
  | .legDown leg => Sys2Proof.Machine.execLegDown leg s
  | .legUp leg => Sys2Proof.Machine.execLegUp leg s
  | .cellDeparture port => Sys2Proof.Machine.execCellDeparture port s
  | .dispatchTrunkCell cell cap => Sys2Proof.Machine.execDispatchTrunkCell cell cap s
  | .dispatchLegCell leg cell => Sys2Proof.Machine.execDispatchLegCell leg cell s
  | .clockReply leg room troom => Sys2Proof.Machine.execClockReply leg room troom s
  | .roomClear leg room => Sys2Proof.Machine.execRoomClear leg room s
  | .ampReady leg slot => Sys2Proof.Machine.execAmpReady leg slot s
  | .lineResult leg slot number cls impedance => Sys2Proof.Machine.execLineResult leg slot number cls impedance s
  | .time tag tref dref wref force cap => Sys2Proof.Machine.execTime tag tref dref wref force cap s
  | .configure tag number value op => Sys2Proof.Machine.execConfigure tag number value op s
  | .configureStepThreshold tag value => Sys2Proof.Machine.execConfigureStepThreshold tag value s
  | .configureSlewRate tag value => Sys2Proof.Machine.execConfigureSlewRate tag value s
  | .configureDrillFloor tag value => Sys2Proof.Machine.execConfigureDrillFloor tag value s
  | .configureDetectorThreshold tag high value => Sys2Proof.Machine.execConfigureDetectorThreshold tag high value s
  | .configureEdgeEnables tag rise value op => Sys2Proof.Machine.execConfigureEdgeEnables tag rise value op s
  | .readIdent tag item clear => Sys2Proof.Machine.execReadIdent tag item clear s
  | .readClock tag item clear => Sys2Proof.Machine.execReadClock tag item clear s
  | .readSchedule tag item clear => Sys2Proof.Machine.execReadSchedule tag item clear s
  | .readEntry tag item clear => Sys2Proof.Machine.execReadEntry tag item clear s
  | .readHolidays tag item clear => Sys2Proof.Machine.execReadHolidays tag item clear s
  | .readPattern tag item clear => Sys2Proof.Machine.execReadPattern tag item clear s
  | .readGenerator tag item clear => Sys2Proof.Machine.execReadGenerator tag item clear s
  | .readBellQueue tag item clear => Sys2Proof.Machine.execReadBellQueue tag item clear s
  | .readZone tag item clear => Sys2Proof.Machine.execReadZone tag item clear s
  | .readPage tag item clear => Sys2Proof.Machine.execReadPage tag item clear s
  | .readRoom tag item clear => Sys2Proof.Machine.execReadRoom tag item clear s
  | .readLeg tag item clear => Sys2Proof.Machine.execReadLeg tag item clear s
  | .readTrunk tag item clear => Sys2Proof.Machine.execReadTrunk tag item clear s
  | .readDrill tag item clear => Sys2Proof.Machine.execReadDrill tag item clear s
  | .readMuster tag item clear => Sys2Proof.Machine.execReadMuster tag item clear s
  | .readInputs tag item clear => Sys2Proof.Machine.execReadInputs tag item clear s
  | .readParam tag item clear => Sys2Proof.Machine.execReadParam tag item clear s
  | .reset tag => Sys2Proof.Machine.execReset tag s
  | .pageOpen tag channel prio zones chime chimeAbsent allOrNone silenceClose => Sys2Proof.Machine.execPageOpen tag channel prio zones chime chimeAbsent allOrNone silenceClose s
  | .pageChangeWrite tag channel zones => Sys2Proof.Machine.execPageChangeWrite tag channel zones s
  | .pageChangeSet tag channel zones => Sys2Proof.Machine.execPageChangeSet tag channel zones s
  | .pageChangeClear tag channel zones => Sys2Proof.Machine.execPageChangeClear tag channel zones s
  | .pageClose tag channel => Sys2Proof.Machine.execPageClose tag channel s
  | .bellNow tag zones pattern prio => Sys2Proof.Machine.execBellNow tag zones pattern prio s
  | .patternWriteDefine tag pattern toneA toneB amplitude inverted repeatCount stepCount => Sys2Proof.Machine.execPatternWriteDefine tag pattern toneA toneB amplitude inverted repeatCount stepCount s
  | .patternWriteSteps tag first words count => Sys2Proof.Machine.execPatternWriteSteps tag first words count s
  | .patternWriteStore tag => Sys2Proof.Machine.execPatternWriteStore tag s
  | .patternWriteEmpty tag pattern => Sys2Proof.Machine.execPatternWriteEmpty tag pattern s
  | .scheduleWriteEntry tag slot second days zones pattern prio holidaySkip catchUp => Sys2Proof.Machine.execScheduleWriteEntry tag slot second days zones pattern prio holidaySkip catchUp s
  | .scheduleWriteEmpty tag slot => Sys2Proof.Machine.execScheduleWriteEmpty tag slot s
  | .scheduleCommit tag => Sys2Proof.Machine.execScheduleCommit tag s
  | .holidayWriteAdd tag day => Sys2Proof.Machine.execHolidayWriteAdd tag day s
  | .holidayWriteRemove tag day => Sys2Proof.Machine.execHolidayWriteRemove tag day s
  | .holidayWriteClear tag => Sys2Proof.Machine.execHolidayWriteClear tag s
  | .zoneAudio tag zones ga gb channel noChannel depth => Sys2Proof.Machine.execZoneAudio tag zones ga gb channel noChannel depth s
  | .zoneMode tag zones mode => Sys2Proof.Machine.execZoneMode tag zones mode s
  | .supervise tag zones => Sys2Proof.Machine.execSupervise tag zones s
  | .rosterWriteWrite tag leg rooms => Sys2Proof.Machine.execRosterWriteWrite tag leg rooms s
  | .rosterWriteSet tag leg rooms => Sys2Proof.Machine.execRosterWriteSet tag leg rooms s
  | .rosterWriteClear tag leg rooms => Sys2Proof.Machine.execRosterWriteClear tag leg rooms s
  | .drillStart tag prealert target staff autoHold => Sys2Proof.Machine.execDrillStart tag prealert target staff autoHold s
  | .drillHold tag => Sys2Proof.Machine.execDrillHold tag s
  | .drillEnd tag => Sys2Proof.Machine.execDrillEnd tag s
  | .alarmSilence tag => Sys2Proof.Machine.execAlarmSilence tag s
  | .dispatchWrite tag first last down up urgent withhold => Sys2Proof.Machine.execDispatchWrite tag first last down up urgent withhold s
  | .readUnknownGroup tag group item clear => Sys2Proof.Machine.execReadUnknownGroup tag group item clear s
  | .patternWriteUnknownOperation tag op => Sys2Proof.Machine.execPatternWriteUnknownOperation tag op s
  | .pageChangeUnknownOperation tag channel op zones => Sys2Proof.Machine.execPageChangeUnknownOperation tag channel op zones s
  | .scheduleWriteUnknownOperation tag slot op => Sys2Proof.Machine.execScheduleWriteUnknownOperation tag slot op s
  | .holidayWriteUnknownOperation tag op => Sys2Proof.Machine.execHolidayWriteUnknownOperation tag op s
  | .rosterWriteUnknownOperation tag leg op rooms => Sys2Proof.Machine.execRosterWriteUnknownOperation tag leg op rooms s

end Sys2Proof.Machine
end

