-- ==== Sys2Proof/Safety.lean ====
section
/-!
DEFINITION. The terms in which statements about the machine are made: what a command answers, what it leaves alone, and the
invariants that every step keeps.
-/
namespace Sys2Proof.Machine

/-! ## Answers -/

/-- A step answers a next state, and that state has a property. -/
abbrev Answers (o : Host.Outcome State Fault Refusal) (P : State → Prop) : Prop := ∃ t, o = .next t ∧ P t

/-- The counts of the present frame's millisecond tick, if it has one, have been taken (R2). -/
abbrev State.Settled (s : State) : Prop := s.tickWaits = false

/-- An event of the present frame is due, and the counts of the frame's millisecond tick, if it has one, have been taken
(R2). -/
abbrev State.IsDue (s : State) (c : Instr) : Prop := s.Settled ∧ s.due.contains c = true

/-- The state in which a command of the head-end has its effect: the counts of the frame's millisecond tick taken (R2), and
the command counted as executed (R178). -/
def State.begun (s : State) (c : Instr) : State :=
  (s.settle.take c).modMgmt fun m => { m with executed := bump m.executed }

/-- A command of the head-end is answered with a result and data, the rest of its effect being that of going to `u`. -/
abbrev Responds (c : Instr) (s : State) (tag kind : Octet) (r : Result) (data : List Octet) (u : State) : Prop :=
  exec c s = .next (respond tag kind r data u)

/-- A command of the head-end is answered with a result and data, and nothing else changes. -/
abbrev RespondsOnly (c : Instr) (s : State) (tag kind : Octet) (r : Result) (data : List Octet) : Prop :=
  Responds c s tag kind r data (s.begun c)

/-- A READ of a row is answered with the parts of these fields, the rest of its effect being that of going to `u`. -/
abbrev ReadsTo (c : Instr) (s : State) (tag : Octet) (fields : List Octet) (u : State) : Prop :=
  exec c s = .next (offerParts tag fields u)

/-- No page is PENDING. -/
abbrev State.NoPending (s : State) : Prop := ∀ p : Fin 8, s.pages[p].state ≠ .pending

/-- The drill record as it stands once it is finalised (R147): a running record takes the end reason, whether every mustered
room cleared by the target time, which stays absent with nothing mustered, and the zones whose health is faulted (R113); a
finalised one does not change. -/
def State.finalised (s : State) (reason : EndReason) : Option DrillRecord :=
  s.drill.record.map fun r =>
    if r.endReason = none then { r with
      endReason := some reason
      allCleared := if r.musterCount = 0 then none
        else some (s.drill.muster.all fun e => e.cleared.any fun x => decide (x ≤ 1000 * r.target))
      faulted := some (setOf fun z =>
        [Health.short, .low, .high, .openLine, .fault, .noReply].contains s.zones[z].health) }
    else r

/-- No event is in progress: nothing is noted as having come by one. -/
abbrev State.NoEvent (s : State) : Prop := s.contest.now = .none

/-! ## What is left alone -/

/-- A zone without owner, power, test state and the counters of the contest: its settings, its duck factor and clip
counter, and its health. -/
def Zone.settings (z : Zone) : Zone :=
  { z with owner := none, power := .on, idleStamp := 0, wakeStamp := none, filtered := 0, unconfirmed := 0,
           test := .none }

/-- A port without its queue and its queue counters. -/
def Port.link (p : Port) : Port :=
  { p with queue := [], accepted := 0, gathered := 0, departed := 0, dropped := 0, evicted := 0, downRefused := 0 }

/-- The arbiter without its queue and its counters: the pattern table, the draft, the late limit. -/
def Arbiter.tables (a : Arbiter) : Arbiter :=
  { Arbiter.reset with patterns := a.patterns, draft := a.draft, lateLimit := a.lateLimit }

/-- What offers, claims, re-evaluations, generators, pages and bell requests never change: two states with the same still
part agree on campus time, schedule, tables, parameters, rooms, drill (but for the owed flags), inputs, links, zone settings
and health. -/
def State.still (s : State) : State :=
  { s with
    gens := Vector.replicate 5 (Gen.reset .bell)
    arb := s.arb.tables
    zones := Vector.ofFn fun z => s.zones[z].settings
    claims := Vector.replicate 13 none
    pages := Vector.replicate 8 Page.reset
    za := { s.za with strayReady := 0 }
    meas := Vector.replicate 4 MeasSlot.reset
    polls := Vector.replicate 4 LegPoll.reset
    drill := { s.drill with owed := 0 }
    ports := Vector.ofFn fun p => s.ports[p].link
    mgmt := { s.mgmt with refused := 0, lostResponses := 0, lostNotices := 0 }
    contest := Contest.none
    due := [] }

/-- What a response or a notice never changes: all but the upstream queue, its counters, and the counters of the Management
Engine. -/
def State.silent (s : State) : State :=
  { s with
    ports := s.ports.set trunkPort s.ports[trunkPort].link
    mgmt := { s.mgmt with executed := 0, refused := 0, lostResponses := 0, lostNotices := 0 }
    due := [] }

/-! ## Invariants -/

/-- No queue holds two CLOCK SET cells for the same destination (R169). -/
abbrev distinctSets (q : List QCell) : Prop :=
  q.Pairwise fun a b => ¬(a.cell.kind = kindClockSet ∧ b.cell.kind = kindClockSet ∧ a.cell.dst = b.cell.dst)

/-- No leg queue holds more than 16 cells and the upstream queue no more than 32, and no queue holds two CLOCK SET cells for
the same destination (R169). -/
abbrev QueuesOk (s : State) : Prop :=
  ∀ p : Fin 5, s.ports[p].queue.length ≤ (if p = 4 then 32 else 16) ∧ distinctSets s.ports[p].queue

/-- The fields of the clock stay in the ranges of R5, R10 and R12, the clock's parameters in those of 1.3, and the phases in
theirs (R1, R7). -/
abbrev ClockOk (s : State) : Prop :=
  s.tickPhase < 8 ∧ s.clock.framePhase < 8 ∧ s.clock.timeOfDay < 86400000 ∧ s.clock.weekday < 7
    ∧ 1 ≤ s.clock.slewRate ∧ s.clock.slewRate ≤ 60 ∧ s.clock.slewInterval = 60000 / s.clock.slewRate
    ∧ s.clock.slewCounter < s.clock.slewInterval
    ∧ 100 ≤ s.clock.stepThreshold ∧ s.clock.stepThreshold ≤ 60000
    ∧ s.clock.correction.natAbs < s.clock.stepThreshold
    ∧ 10 ≤ s.clock.holdoverLimit ∧ s.clock.holdoverLimit ≤ 3600
    ∧ -200 ≤ s.clock.frameTrim ∧ s.clock.frameTrim ≤ 200

/-- The bell queue holds at most 8 requests, no two of the same pattern and priority (R35), and the holiday list at most 32
days, in ascending order without repeats (R51). -/
abbrev ListsOk (s : State) : Prop :=
  s.arb.queue.length ≤ 8
    ∧ (s.arb.queue.Pairwise fun a b => ¬(a.pattern = b.pattern ∧ a.priority = b.priority))
    ∧ s.sched.holidays.length ≤ 32 ∧ s.sched.holidays.Pairwise fun a b => a.toNat < b.toNat

/-- The records of zones, tests, detectors, rooms, drill, inputs and schedule agree with themselves and with each other.
Gains, depth and duck factor stay in their ranges (R92, R98), a detector's envelope in the magnitudes (R85), the low
threshold below the high one (R86); on each leg the zone that the measurement slot tests, and no other, is TESTING (R105);
no missed count exceeds 3 (R124); the muster list stands in ascending room number, and the record counts its entries and its
cleared ones (R141, R146); the drill elapsed time stops where R135 says; a latch stands only with an enable on (R134); the
cursor stays within 0 to 128 (R44). Between two commands no event is in progress (assumption 36). -/
structure RecordsOk (s : State) : Prop where
  zones : ∀ z : Fin 16, s.zones[z].ga ≤ 255 ∧ s.zones[z].gb ≤ 255 ∧ s.zones[z].depth ≤ 128 ∧ s.zones[z].duck ≤ 128
  detectors : ∀ p : Fin 8, s.detectors[p].envelope ≤ 32767
  thresholds : 256 ≤ s.za.detLow ∧ s.za.detLow < s.za.detHigh ∧ s.za.detHigh ≤ 32767
  tests : ∀ leg k : Fin 4, s.zones[zoneOf leg k].test = .testing ↔ s.meas[leg].zone = some k
  rooms : ∀ r : Fin 128, s.rooms[r].missed ≤ 3
  counts : ∀ r, s.drill.record = some r →
    r.musterCount = s.drill.muster.length ∧ r.clearedCount = (s.drill.muster.filter (·.cleared.isSome)).length
  muster : (s.drill.muster.Pairwise fun a b => a.room < b.room) ∧ ∀ e ∈ s.drill.muster, e.room < 128
  elapsed : ∀ n, s.drill.elapsed = some n → n ≤ 2147483647
  latches : ∀ i : Fin 4, s.inputs[i].latch = true → s.inputs[i].rise = true ∨ s.inputs[i].fall = true
  cursor : s.sched.cursor ≤ 128
  contest : s.NoEvent

/-- Claims stand for what holds them: a page's while it is CHIMING or LIVE (R74), a tone generator's while it plays a bell
(R33, R36), and that of EG in the drill states in which R138 gives it one. The chime generator of a CHIMING page plays the
chime of that page (R78). -/
structure ClaimsOk (s : State) : Prop where
  pages : ∀ p : Fin 8, s.claims[pageClaimant p].isSome = s.pages[p].state.holdsClaim
  bells : ∀ g : Fin 4, s.claims[tgClaimant g].isSome = (s.gens[tgGen g].running && decide (s.gens[tgGen g].use ≠ .chime))
  chimes : ∀ (p : Fin 8) (g : Fin 4), s.pages[p].state = .chiming → s.pages[p].chimeGen = some g →
    s.gens[tgGen g].running = true ∧ s.gens[tgGen g].use = .chime ∧ s.gens[tgGen g].page = some p
  eg : s.claims[egClaimant].isSome = s.drill.egPlan.isSome

end Sys2Proof.Machine
end

