-- ==== Sys2Proof/WellFormed.lean ====
section
/-!
DEFINITION. Which terms of `Instr` are commands the outside can send. A field that the link can carry out of range is
well formed at every value, since the meaning of the command checks it; what is refused here is a term of one row that
spells another row of the table, or an operand no cell and no part of the switch can produce.
-/
namespace Sys2Proof

/-- A capture record holds a time of day of the clock (R5, R13). -/
def Capture.wf (c : Capture) : Bool := decide (c.timeOfDay < 86400000)

/-- A term of `Instr` is the command its constructor names. -/
def Instr.wf : Instr → Bool
  | .dispatchTrunkCell c cap => cap.wf && decide (decodeTrunkCell c cap = .dispatchTrunkCell c cap)
  | .dispatchLegCell leg c => decide (decodeLegCell leg c = .dispatchLegCell leg c)
  | .time _ _ _ _ _ cap => cap.wf
  | .configure _ n _ _ => !([1, 2, 9, 10, 14, 29, 30].contains n.toNat)
  | .readUnknownGroup _ g _ _ => decide (16 < g.toNat)
  | .patternWriteUnknownOperation _ op => decide (3 < op.toNat)
  | .pageChangeUnknownOperation _ _ op _ => decide (2 < op.toNat)
  | .scheduleWriteUnknownOperation _ _ op => decide (1 < op.toNat)
  | .holidayWriteUnknownOperation _ op => decide (2 < op.toNat)
  | .rosterWriteUnknownOperation _ _ op _ => decide (2 < op.toNat)
  | _ => true

end Sys2Proof
end

