-- ==== Sys2Proof/Certificates/Slice0/Obligations.lean ====
section
/-!
DEFINITION. The statements for the provers. `s.begun c` is the state in which the command c has its effect; `Answers o P`
says that the step answers a next state with the property P; `still` and `silent` are the parts of the state that an
operation leaves alone.
-/
open Sys2Proof Sys2Proof.Machine

/-! ## The block -/

/-- A step takes the command at the front of the queue and answers exec of it on the state with the queue's rest; on an
empty queue the block idles (the model's choice, assumption 1). -/
def Obligations.StepRunsFrontCommand : Prop :=
  (∀ (s : State) (c : Instr) (rest : List Instr), s.pending = c :: rest →
    step s = exec c { s with pending := rest })
  ∧ (∀ s : State, s.pending = [] → step s = .next s)

/-- A command of the head-end is counted as executed, whatever it answers; READ PARAM apart, which can clear the counter
(R178). (When the events of a frame are taken: assumption 2.) -/
def Obligations.CommandsCountExecuted : Prop :=
  ∀ (s : State) (c : Instr) (cell : Cell) (cap : Capture), decodeCommand cell cap = some c →
    (∀ tag item clear, c ≠ .readParam tag item clear) →
    Answers (exec c s) fun t => t.mgmt.executed = min (s.settle.mgmt.executed + 1) 65535

/-! ## Line reset and invariants -/

/-- LINE_RESET: every block at the values of its chapter, its tables, records, counters and parameters; the raw levels are
those of the contacts. What the links carry before the first frame is left out (assumption 5), and the queue of commands
stands. -/
def Obligations.LineResetValues : Prop :=
  ∀ (contacts : InputSet) (s : State), Answers (exec (.lineReset contacts) s) fun t =>
    t.pending = s.pending ∧ t.choices = s.choices ∧ t.due = [] ∧ t.clipDue = 0 ∧ t.tickPhase = 0 ∧ t.elapsed = 0
    ∧ t.clock = { timeOfDay := 0, framePhase := 0, day := 0, weekday := 0, state := .unset, correction := 0,
                  slewCounter := 0, slewInterval := 2000, lastAccept := none, sets := 0, steps := 0, slews := 0,
                  holdovers := 0, stepThreshold := 2000, slewRate := 30, holdoverLimit := 300, frameTrim := 0 }
    ∧ (∀ n : Fin 16, n.val < 12 → t.arb.patterns[n] = none)
    ∧ t.arb.patterns[(12 : Fin 16)] = some { toneA := 660, toneB := none, amplitude := 16000, inverted := false,
                                             repeatCount := 0, steps := [⟨.toneA, 30⟩, ⟨.silence, 70⟩] }
    ∧ t.arb.patterns[(13 : Fin 16)] = some { toneA := 1000, toneB := none, amplitude := 16000, inverted := false, repeatCount := 0
                                             steps := [⟨.toneA, 75⟩, ⟨.silence, 25⟩, ⟨.toneA, 75⟩, ⟨.silence, 125⟩] }
    ∧ t.arb.patterns[(14 : Fin 16)] = some { toneA := 880, toneB := none, amplitude := 16000, inverted := false,
                                             repeatCount := 1, steps := [⟨.toneA, 200⟩] }
    ∧ t.arb.patterns[(15 : Fin 16)] = some { toneA := 950, toneB := some 700, amplitude := 16000, inverted := false,
                                             repeatCount := 0, steps := [⟨.toneA, 40⟩, ⟨.toneB, 40⟩] }
    ∧ t.arb = { patterns := t.arb.patterns, draft := none, queue := [], lateLimit := 5000, started := 0, merged := 0,
                queued := 0, queueMerged := 0, fullDrop := 0, lateDiscard := 0, emptyDiscard := 0, chimesStarted := 0,
                chimesRefused := 0 }
    ∧ (∀ g : Fin 5, t.gens[g] =
        { running := false, use := if g = 4 then .drill else .bell, held := false, pattern := 0, priority := 1, zones := 0,
          stepIndex := 0, remaining := 0, repeats := .finite 0, passRepeats := .finite 1, increment := 0, phase := 0,
          page := none, stamp := none, origin := none })
    ∧ (∀ i : Fin 128, t.sched.bankA[i] = none ∧ t.sched.bankB[i] = none)
    ∧ t.sched = { bankA := t.sched.bankA, bankB := t.sched.bankB, aActive := true, cursor := 0, cursorDay := 0,
                  cursorWeekday := 0, commitPending := false, holidays := [], lastFiring := none, fired := 0,
                  withheld := 0, skipped := 0, noPattern := 0, catchUpWindow := 60 }
    ∧ (∀ z : Fin 16, t.zones[z] =
        { mode := .day, owner := none, background := none, ga := 128, gb := 0, depth := 32, power := .on, idleStamp := 0,
          wakeStamp := none, filtered := 0, unconfirmed := 0, duck := 128, clip := 0, test := .none, health := .unknown,
          healthLatch := false, impedance := none })
    ∧ (∀ c : Fin 13, t.claims[c] = none)
    ∧ (∀ p : Fin 8, t.pages[p] =
        { state := .free, priority := 1, wanted := 0, chime := none, chimeGen := none, chimeSkipped := false,
          allOrNone := false, silenceClose := false, openStamp := 0, tag := 0, silenceStamp := none })
    ∧ (∀ p : Fin 8, t.detectors[p] = { envelope := 0, active := false })
    ∧ t.za = { pageMax := 600, pageSilence := 8, detHigh := 2000, detLow := 1000, ampIdle := 60, ampWake := 1500,
               drillFloor := 9, strayReady := 0 }
    ∧ t.duckRate = 4 ∧ t.testTimeout = 500
    ∧ (∀ l : Fin 4, t.meas[l] =
        { zone := none, number := 0, departure := none, retry := none, started := 0, completed := 0, timedOut := 0,
          aborted := 0, refused := 0, stray := 0 })
    ∧ (∀ r : Fin 128, t.rooms[r] = { state := .absent, lastError := none, missed := 0, corrections := 0, lastReply := none })
    ∧ (∀ l : Fin 4, t.polls[l] =
        { stamp := 0, lastPolled := none, poll := none, owed := false, departed := 0, taken := 0, misses := 0, late := 0,
          voided := 0, refused := 0, setsQueued := 0, setsRefused := 0 })
    ∧ t.roster = { pollInterval := 500, replyTimeout := 200, tolerance := 250, noted := .unset }
    ∧ t.drill = { state := .idle, entryStamp := 0, cause := none, elapsed := none, muster := [], record := none, owed := 0,
                  drillsStarted := 0, alarmOnsets := 0, clearsRepeated := 0, clearsStray := 0, toneLimit := 600,
                  prealertPattern := 12, evacPattern := 13, allclearPattern := 14, alarmPattern := 15, keyPrealert := 0,
                  keyTarget := 300, keyStaff := 0, keyAutoHold := true, debounce := 20 }
    ∧ (∀ i : Fin 4, t.inputs[i] =
        { raw := contacts.getLsbD i.val, changeStamp := 0, level := false, latch := false, rise := true, fall := true })
    ∧ (∀ p : Fin 5, t.ports[p].assembler.pieces = [] ∧ t.ports[p] =
        { up := false, bad := 0, good := 0, assembler := t.ports[p].assembler, tx := none, queue := [], badFrames := 0,
          syncLosses := 0, received := 0, assemblyErrors := 0, accepted := 0, gathered := 0, departed := 0, dropped := 0,
          evicted := 0, downRefused := 0 })
    ∧ (∀ k : Fin 192, t.table[k] = { down := true, up := true, urgent := false, withhold := true })
    ∧ t.disp = { misaddressed := 0, unknown := 0, tableDropped := 0, withheld := 0 }
    ∧ t.mgmt = { enables := 0x7FFE, deferred := none, executed := 0, refused := 0, lostResponses := 0, lostNotices := 0 }

/-- The five invariants hold in the state after reset. -/
def Obligations.InvariantsHoldAtReset : Prop :=
  QueuesOk State.reset ∧ ClockOk State.reset ∧ ListsOk State.reset ∧ RecordsOk State.reset ∧ ClaimsOk State.reset

/-- No step makes a queue longer than its capacity or puts two CLOCK SET cells for one destination in it. -/
def Obligations.QueuesStayBounded : Prop := ∀ s t : State, QueuesOk s → step s = .next t → QueuesOk t

/-- Every step keeps the clock's fields, the phases and the four clock parameters S, R, H and trim in their ranges, K at
floor(60000 / R), and C strictly below S in magnitude. -/
def Obligations.ClockStaysInRange : Prop := ∀ s t : State, ClockOk s → step s = .next t → ClockOk t

/-- Every step keeps the bell queue at 8 requests at most, no two alike, and the holiday list at 32 ascending days. -/
def Obligations.ListsStayBounded : Prop := ∀ s t : State, ListsOk s → step s = .next t → ListsOk t

/-- Every step keeps the records of zones, line tests, detectors, rooms, drill, inputs and schedule in their ranges and in
agreement, and no event in progress between two commands (the model's own field, assumption 36): `RecordsOk` names the
conditions. -/
def Obligations.RecordsStayConsistent : Prop := ∀ s t : State, RecordsOk s → step s = .next t → RecordsOk t

/-- Every step keeps a claim standing for each page that is CHIMING or LIVE, for each tone generator that plays a bell,
and for EG in the drill states that give it one, and no other claim; and a CHIMING page's generator playing that page's
chime. -/
def Obligations.ClaimsMatchHolders : Prop := ∀ s t : State, ClaimsOk s → step s = .next t → ClaimsOk t

/-! ## Queues and cells -/

/-- The five ways in which a queue meets an offer, in their order, with their counters: the refusal of a DOWN leg, the
gathering of a CLOCK SET or a NOTICE, the append, the eviction of the youngest ordinary cell by an urgent arrival to a
full queue, the drop. -/
def Obligations.QueueMeetsOffer : Prop :=
  ∀ (isLeg : Bool) (cap : Nat) (c : QCell) (p : Port),
    (isLeg = true ∧ p.up = false → p.offer isLeg cap c = ({ p with downRefused := bump p.downRefused }, .downRefused))
    ∧ ((isLeg = false ∨ p.up = true) →
      (∀ l x r, p.queue = l ++ x :: r → (∀ y ∈ l, gathers c.cell y.cell = false) → gathers c.cell x.cell = true →
        p.offer isLeg cap c = ({ p with queue := l ++ { x with cell := { x.cell with payload := c.cell.payload } } :: r,
                                        gathered := bump p.gathered }, .gathered))
      ∧ ((∀ y ∈ p.queue, gathers c.cell y.cell = false) →
        (p.queue.length < cap →
          p.offer isLeg cap c = ({ p with queue := p.queue ++ [c], accepted := bump p.accepted }, .appended))
        ∧ (cap ≤ p.queue.length →
          (∀ l x r, p.queue = l ++ x :: r → x.urgent = false → (∀ y ∈ r, y.urgent = true) → c.urgent = true →
            p.offer isLeg cap c = ({ p with queue := l ++ r ++ [c], evicted := bump p.evicted,
                                            accepted := bump p.accepted }, .evicted x))
          ∧ ((c.urgent = false ∨ ∀ y ∈ p.queue, y.urgent = true) →
            p.offer isLeg cap c = ({ p with dropped := bump p.dropped }, .dropped)))))

/-- A response or a notice changes only the upstream queue, its counters and the counters of the Management Engine; a
response is queued as urgent behind the cells that wait, when the queue has room. The answer to a READ is one RESPONSE for
each nine octets of the fields, at least one, in order behind the cells that wait, each DONE and urgent with the command's
tag, its index and the number of parts in octet 6, and nine octets of the fields from octet 7, zeros after the last. (Data
octets: assumptions 9 to 11.) -/
def Obligations.ResponseGoesUpstream : Prop :=
  ∀ (tag kind : Octet) (r : Result) (data : List Octet) (s : State),
    (respond tag kind r data s).silent = s.silent
    ∧ (∀ k n d, (notify k n d s).silent = s.silent)
    ∧ (s.ports[trunkPort].queue.length < 32 → ∃ e,
        (respond tag kind r data s).ports[trunkPort].queue = s.ports[trunkPort].queue ++ [e]
        ∧ e.urgent = true ∧ e.cell.kind = 0x20 ∧ e.cell.dst = 0x01 ∧ e.cell.src = 0x00 ∧ e.cell.tag = tag
        ∧ e.cell.octet 4 = kind ∧ e.cell.octet 5 = oct r.code ∧ ∀ j < 10, e.cell.octet (6 + j) = data.getD j 0)
    ∧ ∀ fields : List Octet, let n := max 1 ((fields.length + 8) / 9)
      s.ports[trunkPort].queue.length + n ≤ 32 → n ≤ 15 →
      (offerParts tag fields s).silent = s.silent ∧ ∃ parts : List QCell,
        (offerParts tag fields s).ports[trunkPort].queue = s.ports[trunkPort].queue ++ parts ∧ parts.length = n
        ∧ ∀ (k : Nat) (x : QCell), parts[k]? = some x →
            x.urgent = true ∧ x.cell.kind = 0x20 ∧ x.cell.dst = 0x01 ∧ x.cell.src = 0x00 ∧ x.cell.tag = tag
            ∧ x.cell.octet 4 = 0x03 ∧ x.cell.octet 5 = 0 ∧ (x.cell.octet 6).toNat = 16 * k + n
            ∧ ∀ j < 9, x.cell.octet (7 + j) = fields.getD (9 * k + j) 0

/-- The queue gives up its oldest urgent cell, or its oldest ordinary cell when no urgent cell waits, and the cells behind
it close up. CELL_DEPARTURE: that cell leaves the queue and is counted, its first piece stands in the frame with
cell-start and cell-valid, and the transmitter is SENDING with one piece; a CLOCK SET carries T, D, W and the holdover
flag of that frame, a DRILL STATE the drill elapsed time in seconds, 0 in IDLE and the alarm states. A CLOCK POLL of a leg
gives its poll the departure stamp and time and makes its room the last polled; a LINE TEST of the number under test gives
the test its departure stamp; nothing else changes. (When the events of a frame are taken: assumption 2.) -/
def Obligations.CellDeparts : Prop :=
  (∀ q : List QCell, (serve q = none ↔ q = []) ∧ ∀ x rest, serve q = some (x, rest) →
    ∃ l r, q = l ++ x :: r ∧ rest = l ++ r ∧
      ((x.urgent = true ∧ ∀ y ∈ l, y.urgent = false) ∨ (x.urgent = false ∧ l = [] ∧ ∀ y ∈ q, y.urgent = false)))
  ∧ ∀ (p : Fin 5) (s : State) (q : QCell) (rest : List QCell), s.IsDue (.cellDeparture p) → s.ports[p].up = true →
    s.ports[p].tx = none → serve s.ports[p].queue = some (q, rest) →
    let c := fillDeparture s q.cell
    Answers (exec (.cellDeparture p) s) fun t =>
      t.ports = s.ports.set p { s.ports[p] with
        queue := rest, departed := min (s.ports[p].departed + 1) 65535, tx := some { cell := c, sent := 1 } }
      ∧ t.sending[p].control.toNat % 4 = 3 ∧ (∀ i : Fin 4, t.sending[p].fragment[i] = c.octets.getD i.val 0)
      ∧ (∀ o : Fin 5, o ≠ p → t.sending[o] = s.sending[o])
      ∧ (q.cell.kind = kindClockSet →
          c.octets4 4 = BitVec.ofNat 32 s.clock.timeOfDay ∧ c.octets2 8 = s.clock.day
          ∧ c.octet 10 = BitVec.ofNat 8 s.clock.weekday ∧ c.flag 11 0 = decide (s.clock.state = .holdover))
      ∧ (q.cell.kind = kindDrillState →
          ((q.cell.octet 4).toNat ∈ [0, 5, 6] → c.octets4 7 = 0)
          ∧ ∀ n, (q.cell.octet 4).toNat ∈ [1, 2, 3, 4] → s.drill.elapsed = some n → c.octets4 7 = BitVec.ofNat 32 (n / 1000))
      ∧ (q.cell.kind ≠ kindClockSet → q.cell.kind ≠ kindDrillState → c = q.cell)
      ∧ (∀ (leg : Fin 4) (poll : Poll), p = legPort leg → q.cell.kind = kindClockPoll → s.polls[leg].poll = some poll →
          t.polls = s.polls.set leg { s.polls[leg] with
            poll := some { poll with departed := some ⟨s.elapsed, s.clock.timeOfDay⟩ }, lastPolled := some poll.room
            departed := min (s.polls[leg].departed + 1) 65535 })
      ∧ (q.cell.kind ≠ kindClockPoll → t.polls = s.polls)
      ∧ (∀ leg : Fin 4, p = legPort leg → q.cell.kind = kindLineTest →
          t.meas = s.meas.set leg { s.meas[leg] with departure :=
            if s.meas[leg].zone.isSome = true ∧ s.meas[leg].number = q.cell.octet 5 then some s.elapsed
            else s.meas[leg].departure })
      ∧ (q.cell.kind ≠ kindLineTest → t.meas = s.meas)
      ∧ { t with ports := s.ports, polls := s.polls, meas := s.meas, sending := s.sending, due := s.due } = s

/-! ## Links -/

/-- TRUNK_SYNC_LOSS and TRUNK_SYNC_GAIN: the state changes, both counts become 0, a cell being assembled is discarded and
counted as an assembly error, a loss is counted, and TRUNK-STATE carries the old and the new state; nothing else changes,
so every leg port stands, and the upstream queue but for that notice. (When the events of a frame are taken: assumption
2.) (Data octets: assumptions 9 to 11.) -/
def Obligations.TrunkSyncChanges : Prop :=
  ∀ s : State,
    let old := s.ports[trunkPort]
    let changes (c : Instr) (up : Bool) (data : List Octet) : Prop := s.IsDue c → ∃ x : Port,
      x.assembler.pieces = [] ∧ (old.assembler.pieces = [] → x.assembler = old.assembler)
      ∧ x = { old with
          up, bad := 0, good := 0, assembler := x.assembler
          assemblyErrors := if old.assembler.pieces = [] then old.assemblyErrors else min (old.assemblyErrors + 1) 65535
          syncLosses := if up then old.syncLosses else min (old.syncLosses + 1) 65535 }
      ∧ exec c s = .next (notify .trunkState 0 data ((s.take c).modPort trunkPort fun _ => x))
      ∧ Answers (exec c s) fun t =>
          t.silent = (s.modPort trunkPort fun _ => x).silent ∧ ∀ leg : Fin 4, t.ports[legPort leg] = s.ports[legPort leg]
    changes .trunkSyncLoss false [1, 0] ∧ changes .trunkSyncGain true [0, 1]

/-- LEG_DOWN, where no page is PENDING: the leg is DOWN with its counts at 0 and the loss counted; a cell being assembled
is discarded and counted as an assembly error; its queue is flushed, each cell counted as dropped and its maker told: a
leg-broadcast CLOCK SET counts as refused and is owed, a DRILL STATE is owed; its poll and its test are ended. Campus
time, schedule, tables, parameters, rooms, inputs, the other legs' polls and the other links stand. LEG_UP: the leg is UP
with its counts at 0. With room in its queue it gets a leg-broadcast CLOCK SET unless the clock is UNSET, then none being
owed, and after it a DRILL STATE of the present state unless that is IDLE and none is owed, then none being owed. (When
the events of a frame are taken: assumption 2.) (Data octets: assumptions 9 to 11.) -/
def Obligations.LegSyncChanges : Prop :=
  (∀ (leg : Fin 4) (s : State), s.IsDue (.legDown leg) → s.NoPending →
    let x := s.ports[legPort leg]
    let sets := x.queue.filter fun c => decide (c.cell.kind = kindClockSet ∧ c.cell.dst = broadcastAddr leg)
    Answers (exec (.legDown leg) s) fun t =>
      let y := t.ports[legPort leg]
      y.up = false ∧ y.bad = 0 ∧ y.good = 0 ∧ y.queue = [] ∧ y.tx = x.tx
      ∧ y.syncLosses = min (x.syncLosses + 1) 65535
      ∧ y.assembler.pieces = []
      ∧ y.assemblyErrors = (if x.assembler.pieces = [] then x.assemblyErrors else min (x.assemblyErrors + 1) 65535)
      ∧ y.dropped = (if x.queue = [] then x.dropped else min (x.dropped + x.queue.length) 65535)
      ∧ t.polls = s.polls.set leg { s.polls[leg] with
          poll := none, owed := s.polls[leg].owed || decide (sets ≠ [])
          setsRefused := if sets = [] then s.polls[leg].setsRefused
            else min (s.polls[leg].setsRefused + sets.length) 65535 }
      ∧ t.drill = { s.drill with
          owed := if x.queue.any (fun c => c.cell.kind == kindDrillState)
            then s.drill.owed ||| BitVec.ofNat 4 (2 ^ leg.val) else s.drill.owed }
      ∧ t.meas[leg].zone = none ∧ t.meas[leg].number = s.meas[leg].number
      ∧ { t.still with ports := s.ports } = { s.still with ports := s.ports }
      ∧ (∀ p : Fin 5, p ≠ legPort leg → t.ports[p].link = s.ports[p].link))
  ∧ ∀ (leg : Fin 4) (s : State), s.IsDue (.legUp leg) →
    let x := s.ports[legPort leg]
    let clock : Bool := decide (s.clock.state ≠ .unset)
    let drill : Bool := decide (s.drill.state ≠ .idle) || s.drill.owed.getLsbD leg.val
    Answers (exec (.legUp leg) s) fun t =>
      let y := t.ports[legPort leg]
      y.up = true ∧ y.bad = 0 ∧ y.good = 0 ∧ y.assembler.pieces = []
      ∧ { t.still with ports := s.ports } = { s.still with ports := s.ports }
      ∧ (x.queue.length ≤ 14 → (∀ c ∈ x.queue, ¬(c.cell.kind = kindClockSet ∧ c.cell.dst = broadcastAddr leg)) →
        y.queue = x.queue
          ++ (if clock then [⟨mkCell kindClockSet (broadcastAddr leg) 0 [], false, .roster⟩] else [])
          ++ (if drill then [⟨mkCell kindDrillState (broadcastAddr leg) 0
              (u8 s.drill.state.code ++ u16 ((s.drill.record.map (·.target)).getD 0)), true, .drill⟩] else [])
        ∧ t.polls = (if clock then s.polls.set leg { s.polls[leg] with
            setsQueued := min (s.polls[leg].setsQueued + 1) 65535, owed := false } else s.polls)
        ∧ t.drill = (if drill then
            { s.drill with owed := s.drill.owed &&& ~~~(BitVec.ofNat 4 (2 ^ leg.val)) } else s.drill))

/-! ## Ticks and the clock -/

/-- The counts of a millisecond tick come before everything else of its frame: the tick phase becomes 0, the elapsed count
increases by 1 (wrapping), the step remaining of a RUNNING generator decreases by 1, the drill elapsed time increases by 1
in EVACUATE and HOLD. MILLISECOND_TICK, which the queue may hold before or after the other events of the frame, then moves
each duck factor toward its target by the duck rate or the smaller distance; all else stands. (When the events of a frame
are taken: assumption 2.) -/
def Obligations.MillisecondTickEffect : Prop :=
  ∀ s : State, s.due.contains .millisecondTick = true →
    (s.tickPhase = 7 → let u := s.settle
      u.tickPhase = 0 ∧ u.elapsed.toNat = (s.elapsed.toNat + 1) % 4294967296
      ∧ (∀ g : Fin 5, u.gens[g] =
          { s.gens[g] with remaining := if s.gens[g].running then s.gens[g].remaining - 1 else s.gens[g].remaining })
      ∧ u.drill = { s.drill with elapsed :=
          if s.drill.state = .evacuate ∨ s.drill.state = .hold then s.drill.elapsed.map fun n => min (n + 1) 2147483647
          else s.drill.elapsed }
      ∧ { u with tickPhase := s.tickPhase, elapsed := s.elapsed, gens := s.gens, drill := s.drill, due := s.due } = s)
    ∧ (s.tickPhase ≠ 7 → s.settle = s)
    ∧ Answers (exec .millisecondTick s) fun t =>
      (∀ z : Fin 16, let target := if s.zones[z].owner.isSome then s.zones[z].depth else 128
        t.zones[z] = { s.zones[z] with duck := t.zones[z].duck }
        ∧ (s.zones[z].duck ≤ target →
            t.zones[z].duck = s.zones[z].duck + min s.duckRate (target - s.zones[z].duck))
        ∧ (target ≤ s.zones[z].duck →
            t.zones[z].duck = s.zones[z].duck - min s.duckRate (s.zones[z].duck - target)))
      ∧ { t with zones := s.zones, due := s.due } = { s.settle with due := s.due }

/-- CLOCK_TICK: the slew counter increases and becomes 0 at K; T advances by 1, or on a slew tick by 2 with C > 0 and by 0
with C < 0, C moving by 1 toward 0; at 86,400,000 T wraps and D and W advance; the frame phase becomes 0. The midnight
signal and then the second-boundary signal go to the Schedule Engine with the new values, and nothing else happens; for
the contest of the frame the tick is one event (assumption 36). The rest of the clock, the elapsed count, the parameters,
the rooms and the inputs stand. SLEW_TICK is that tick where the slew counter reaches K, and no tick where it does not
(the model's reading, assumption 2). -/
def Obligations.ClockTickAdvance : Prop :=
  ∀ s : State, s.IsDue .clockTick → s.clock.timeOfDay < 86400000 → s.clock.weekday < 7 →
    s.clock.slewCounter < s.clock.slewInterval →
    let slew : Prop := s.clock.slewCounter + 1 = s.clock.slewInterval
    let moved : Nat := s.clock.timeOfDay
      + if slew then (if 0 < s.clock.correction then 2 else if s.clock.correction < 0 then 0 else 1) else 1
    let k : Clock := { s.clock with
      framePhase := 0
      slewCounter := if slew then 0 else s.clock.slewCounter + 1
      correction := if slew then s.clock.correction - s.clock.correction.sign else s.clock.correction
      timeOfDay := if moved < 86400000 then moved else moved - 86400000
      day := if moved < 86400000 then s.clock.day else s.clock.day + 1
      weekday := if moved < 86400000 then s.clock.weekday else (s.clock.weekday + 1) % 7 }
    let u : State := { s.take .clockTick with clock := k }
    let v : State := if moved < 86400000 then u else schedMidnight k.day k.weekday u
    (s.clock.slewCounter + 1 < s.clock.slewInterval → exec .slewTick s = .next s)
    ∧ ∀ c : Instr, c = .clockTick ∨ (c = .slewTick ∧ slew) → Answers (exec c s) fun t =>
      t.clock = k
      ∧ t = asEvent (fun _ => if k.timeOfDay / 1000 = s.clock.timeOfDay / 1000 then v
          else schedSecond (k.timeOfDay / 1000) k.day k.weekday v) (s.take .clockTick)
      ∧ { t.still with clock := s.clock, sched := s.sched, drill := s.drill, mgmt := s.mgmt }
          = { s.still with clock := s.clock, sched := s.sched, drill := s.drill, mgmt := s.mgmt }
      ∧ t.drill = { s.drill with record := t.drill.record, owed := t.drill.owed } ∧ t.mgmt.enables = s.mgmt.enables

/-- The slew rate and its interval. CONFIGURE of R clamps the value to 1–60, recomputes K = floor(60000 / R), which lies
from 1000 to 60,000, and sets the slew counter to 0; C and the rest of the clock stand. The next slew tick is then the
K-th clock tick. The default R of 30 gives K = 2000, and the table's four rates have the table's intervals and slew ticks
per hour. -/
def Obligations.SlewRateSetsInterval : Prop :=
  (∀ (tag : Octet) (value : Word32) (s : State), Answers (exec (.configureSlewRate tag value) s) fun t =>
    let r := (max 1 (min 60 value.toInt)).toNat
    t.clock = { s.clock with slewRate := r, slewInterval := 60000 / r, slewCounter := 0 }
    ∧ 1 ≤ r ∧ r ≤ 60 ∧ 1000 ≤ 60000 / r ∧ 60000 / r ≤ 60000
    ∧ (∀ n, n + 1 < 60000 / r → (Nat.repeat Clock.tick n t.clock).slewsNext = false)
    ∧ (∀ n, n + 1 = 60000 / r → (Nat.repeat Clock.tick n t.clock).slewsNext = true))
  ∧ State.reset.clock.slewRate = 30 ∧ State.reset.clock.slewInterval = 2000
  ∧ [60, 30, 7, 1].map (fun r => (60000 / r, 3600000 / (60000 / r)))
      = [(1000, 3600), (2000, 1800), (8571, 420), (60000, 60)]

/-- The correction remaining C and the step threshold S. C stays strictly smaller in magnitude than S through every step;
a TIME leaves C as it is, sets it to 0, or sets it to its error e, and that only with |e| < S. CONFIGURE of S clamps the
value to 100–60,000: with S greater than |C| C is unchanged, and otherwise it takes the sign it had and the magnitude S −
1; the rest of the clock, T too, stands. With C = 870 and C = −870 the write of 500 leaves 499 and −499, the write of 871
leaves C. -/
def Obligations.StepThresholdHoldsCorrection : Prop :=
  (∀ s t : State, s.clock.correction.natAbs < s.clock.stepThreshold → step s = .next t →
    t.clock.correction.natAbs < t.clock.stepThreshold)
  ∧ (∀ (tag : Octet) (tref : Word32) (dref : Day) (wref : Octet) (force : Bool) (cap : Capture) (s : State),
    let e : Int := (dref - cap.day).toInt * 86400000 + ((tref.toNat : Int) - cap.timeOfDay)
    Answers (exec (.time tag tref dref wref force cap) s) fun t =>
      t.clock.correction = s.clock.correction ∨ t.clock.correction = 0
        ∨ (t.clock.correction = e ∧ e.natAbs < s.clock.stepThreshold))
  ∧ (∀ (tag : Octet) (value : Word32) (s : State), Answers (exec (.configureStepThreshold tag value) s) fun t =>
    let n := (max 100 (min 60000 value.toInt)).toNat
    t.clock = { s.clock with stepThreshold := n, correction := t.clock.correction }
    ∧ (s.clock.correction.natAbs < n → t.clock.correction = s.clock.correction)
    ∧ (n ≤ s.clock.correction.natAbs →
      t.clock.correction.natAbs = n - 1 ∧ t.clock.correction.sign = s.clock.correction.sign)
    ∧ (s.clock.correction = 870 → (value = 500 → t.clock.correction = 499) ∧ (value = 871 → t.clock.correction = 870))
    ∧ (s.clock.correction = -870 → value = 500 → t.clock.correction = -499))

/-- TIME in UNSET: T, D and W take the reference advanced by the milliseconds since the capture, the clock is LOCKED, the
schedule cursor stands at the first entry above the new second and nothing fires. A Tref or Wref out of range is refused
FIELD and changes nothing. HOLDOVER_EXPIRY: LOCKED for H s since the last accepted TIME becomes HOLDOVER, counted, with a
CLOCK-STATE notice of the old and the new state; nothing else changes. (More than one millisecond since the capture:
assumption 14.) (When the events of a frame are taken: assumption 2.) (Data octets: assumptions 9 to 11.) -/
def Obligations.ClockStateChanges : Prop :=
  (∀ (tag : Octet) (tref : Word32) (dref : Day) (wref : Octet) (force : Bool) (cap : Capture) (s : State),
    let c : Instr := .time tag tref dref wref force cap
    ((86400000 ≤ tref.toNat ∨ 6 < wref.toNat) → exec c s = .next (respond tag 0x01 .field [] (s.begun c)))
    ∧ (tref.toNat < 86400000 → wref.toNat ≤ 6 → s.Settled → s.clock.state = .unset →
      let sum := tref.toNat + (s.elapsed - cap.elapsed).toNat
      let d := dref + BitVec.ofNat 16 (sum / 86400000)
      let w := (wref.toNat + sum / 86400000) % 7
      Answers (exec c s) fun t =>
        t.clock = { s.clock with
          timeOfDay := sum % 86400000, day := d, weekday := w, framePhase := 0, correction := 0, state := .locked,
          lastAccept := some s.elapsed, sets := min (s.clock.sets + 1) 65535 }
        ∧ t.sched = (s.sched.positionAbove (sum % 86400000 / 1000)).noteDay d w
        ∧ { t.silent with clock := s.clock, sched := s.sched } = s.silent))
  ∧ ∀ (s : State) (st : Word32), s.IsDue .holdoverExpiry → s.clock.state = .locked → s.clock.lastAccept = some st →
    s.clock.holdoverLimit * 1000 ≤ (s.elapsed - st).toNat →
    exec .holdoverExpiry s = .next (notify .clockState 0 (u8 ClockState.locked.code ++ u8 ClockState.holdover.code)
      { s.take .holdoverExpiry with clock := { s.clock with
        state := .holdover, holdovers := min (s.clock.holdovers + 1) 65535 } })

/-- TIME while the clock is set. With the force-step flag clear and an error below S it slews: C takes e, the state is
LOCKED, the last-accept stamp is renewed, and nothing else changes. With the flag set or an error of at least S it steps:
T takes the remainder of T + e by floor division, D and W move by the quotient, C becomes 0; frame phase and slew counter
stand; the Schedule Engine and then the Room Roster have the step signal, and nothing else changes but what they do, for
the contest of the frame one event (assumption 36). The Room Roster voids the poll that is outstanding on each leg and
leaves one that is queued; an UP leg with room in its queue has a leg-broadcast CLOCK SET waiting, counted, and owes none,
and a DOWN leg gets no cell. (When the events of a frame are taken: assumption 2.) -/
def Obligations.TimeCorrectsTheClock : Prop :=
  (∀ (tag : Octet) (tref : Word32) (dref : Day) (wref : Octet) (force : Bool) (cap : Capture) (s : State),
    let e : Int := (dref - cap.day).toInt * 86400000 + ((tref.toNat : Int) - cap.timeOfDay)
    let sum : Int := (s.clock.timeOfDay : Int) + e
    tref.toNat < 86400000 → wref.toNat ≤ 6 → s.Settled → s.clock.state ≠ .unset →
    (e.natAbs < s.clock.stepThreshold → Answers (exec (.time tag tref dref wref false cap) s) fun t =>
      t.silent = { s.silent with clock := { s.clock with
        correction := e, state := .locked, lastAccept := some s.elapsed, slews := min (s.clock.slews + 1) 65535 } })
    ∧ ((force = true ∨ s.clock.stepThreshold ≤ e.natAbs) →
      let c : Instr := .time tag tref dref wref force cap
      let k : Clock := { s.clock with
        timeOfDay := (sum % 86400000).toNat, day := s.clock.day + BitVec.ofInt 16 (sum / 86400000)
        weekday := (((s.clock.weekday : Int) + sum / 86400000) % 7).toNat
        correction := 0, steps := min (s.clock.steps + 1) 65535 }
      let u : State := asEvent (fun v => rosterStep
        (schedStep s.clock.timeOfDay s.clock.day k.timeOfDay k.day k.weekday { v with clock := k })) (s.begun c)
      Answers (exec c s) fun t =>
        t.clock = { k with state := .locked, lastAccept := some s.elapsed }
        ∧ t.silent = { u.silent with clock := t.clock } ∧ (∀ l : Fin 4, t.ports[legPort l] = u.ports[legPort l])
        ∧ { t.still with clock := s.clock, sched := s.sched, drill := s.drill, mgmt := s.mgmt }
            = { s.still with clock := s.clock, sched := s.sched, drill := s.drill, mgmt := s.mgmt }
        ∧ t.drill = { s.drill with record := t.drill.record, owed := t.drill.owed } ∧ t.mgmt.enables = s.mgmt.enables))
  ∧ ∀ u : State, let t := rosterStep u
    let voided (l : Fin 4) : Option Poll := u.polls[l].poll.map fun q => { q with voided := q.voided || q.departed.isSome }
    (∀ l : Fin 4, (u.ports[legPort l].up = true → u.ports[legPort l].queue.length < 16 →
        t.polls[l] = { u.polls[l] with
          poll := voided l, owed := false, setsQueued := min (u.polls[l].setsQueued + 1) 65535 }
        ∧ ∃ x ∈ t.ports[legPort l].queue, x.cell.kind = kindClockSet ∧ x.cell.dst = broadcastAddr l)
      ∧ (u.ports[legPort l].up = false →
        t.polls[l] = { u.polls[l] with poll := voided l } ∧ t.ports[legPort l] = u.ports[legPort l]))
    ∧ (∀ l : Fin 4, t.polls[l].poll = voided l)
    ∧ { t.silent with polls := u.polls, ports := u.ports } = { u.silent with polls := u.polls, ports := u.ports }
    ∧ ∀ p : Fin 5, t.ports[p].link = u.ports[p].link

/-! ## Generators, bells and patterns -/

/-- GENERATOR_STEP_END, a further step or a further pass: the step index advances, or returns to 0 with repeats remaining
counted down, kept (CONTINUOUS), or restored (HELD at 1); the step begins with its duration and P at 0. Nothing else
changes. (When the events of a frame are taken: assumption 2.) -/
def Obligations.GeneratorStepEnds : Prop :=
  ∀ (g : Fin 5) (s : State) (p : Pattern), s.IsDue (.generatorStepEnd g) → s.gens[g].running = true →
    s.gens[g].remaining = 0 → s.arb.pattern s.gens[g].pattern = some p →
    (∀ st : PatStep, p.steps[s.gens[g].stepIndex + 1]? = some st → Answers (exec (.generatorStepEnd g) s) fun t =>
      t = (s.take (.generatorStepEnd g)).modGen g fun x =>
        { x with stepIndex := x.stepIndex + 1, remaining := 10 * st.units, phase := 0, increment := p.increment st })
    ∧ (∀ st : PatStep, s.gens[g].stepIndex + 1 = p.steps.length → p.steps[0]? = some st →
      (s.gens[g].repeats = .continuous → Answers (exec (.generatorStepEnd g) s) fun t =>
        t = (s.take (.generatorStepEnd g)).modGen g fun x =>
          { x with stepIndex := 0, remaining := 10 * st.units, phase := 0, increment := p.increment st })
      ∧ (∀ n, s.gens[g].repeats = .finite n → 1 < n → Answers (exec (.generatorStepEnd g) s) fun t =>
        t = (s.take (.generatorStepEnd g)).modGen g fun x =>
          { x with repeats := .finite (n - 1), stepIndex := 0, remaining := 10 * st.units, phase := 0,
                   increment := p.increment st })
      ∧ (s.gens[g].repeats = .finite 1 → s.gens[g].held = true → Answers (exec (.generatorStepEnd g) s) fun t =>
        t = (s.take (.generatorStepEnd g)).modGen g fun x =>
          { x with repeats := x.passRepeats, stepIndex := 0, remaining := 10 * st.units, phase := 0,
                   increment := p.increment st }))

/-- A generator finishes, with no page PENDING. A bell with an empty bell queue: the tone generator is IDLE with repeats
remaining 0 and its claim is withdrawn. A bell with a request at the head that is neither late nor without a pattern: that
request starts on it, keeping its zone set, priority, origin and stamp. A chime: its CHIMING page is LIVE without chime
generator and with its silence stamp, and all else stands. The end of EG's FINITE all-clear in ALLCLEAR makes the drill
state IDLE with cause TONE-END, and a drill record still running is finalised with end reason ENDED, its all cleared by
target and its faulted zones (R147). (When the events of a frame are taken: assumption 2.) -/
def Obligations.GeneratorFinishes : Prop :=
  ∀ (s : State) (p : Pattern),
    (∀ g : Fin 4, s.IsDue (.generatorStepEnd (tgGen g)) → s.gens[tgGen g].running = true →
      s.gens[tgGen g].remaining = 0 → s.arb.pattern s.gens[tgGen g].pattern = some p →
      p.steps.length ≤ s.gens[tgGen g].stepIndex + 1 → s.gens[tgGen g].repeats = .finite 1 →
      s.gens[tgGen g].held = false → s.NoPending →
      (s.gens[tgGen g].use = .bell →
        (s.arb.queue = [] → Answers (exec (.generatorStepEnd (tgGen g)) s) fun t =>
          t.gens = s.gens.set (tgGen g) { s.gens[tgGen g] with running := false, repeats := .finite 0 }
          ∧ t.claims = s.claims.set (tgClaimant g) none ∧ t.arb = s.arb ∧ t.pages = s.pages ∧ t.still = s.still)
        ∧ (∀ (r : BellReq) (rest : List BellReq) (q : Pattern), s.arb.queue = r :: rest →
          (s.elapsed - r.stamp).toNat ≤ s.arb.lateLimit → s.arb.pattern r.pattern = some q →
          Answers (exec (.generatorStepEnd (tgGen g)) s) fun t =>
            t.gens = s.gens.set (tgGen g) { t.gens[tgGen g] with
              running := true, use := .bell, held := false, pattern := r.pattern, priority := r.priority, zones := r.zones
              page := none, stamp := some r.stamp, origin := some r.origin, stepIndex := 0
              repeats := .finite (max 1 q.repeatCount), passRepeats := .finite (max 1 q.repeatCount), phase := 0 }
            ∧ (∃ k, t.claims = s.claims.set (tgClaimant g) (some k) ∧ k.priority = r.priority ∧ k.wanted = r.zones
                ∧ k.stamp = r.stamp)
            ∧ t.arb = { s.arb with queue := rest, started := min (s.arb.started + 1) 65535 }
            ∧ t.pages = s.pages ∧ t.still = s.still))
      ∧ (∀ q : Fin 8, s.gens[tgGen g].use = .chime → s.gens[tgGen g].page = some q → s.pages[q].state = .chiming →
        s.pages[q].chimeGen = some g → s.arb.queue = [] → Answers (exec (.generatorStepEnd (tgGen g)) s) fun t =>
          t.gens = s.gens.set (tgGen g) { s.gens[tgGen g] with running := false, repeats := .finite 0 }
          ∧ t.pages = s.pages.set q { s.pages[q] with state := .live, chimeGen := none, silenceStamp := some s.elapsed }
          ∧ { t with gens := s.gens, pages := s.pages, due := s.due } = s))
    ∧ (s.IsDue (.generatorStepEnd egGen) → s.gens[egGen].running = true → s.gens[egGen].remaining = 0 →
      s.arb.pattern s.gens[egGen].pattern = some p → p.steps.length ≤ s.gens[egGen].stepIndex + 1 →
      s.gens[egGen].repeats = .finite 1 → s.gens[egGen].held = false → s.drill.state = .allclear →
      Answers (exec (.generatorStepEnd egGen) s) fun t =>
        t.gens[egGen].running = false
        ∧ t.drill = { s.drill with
            state := .idle, entryStamp := s.elapsed, cause := some .toneEnd, record := s.finalised .ended
            owed := t.drill.owed }
        ∧ { t.still with drill := s.drill } = { s.still with drill := s.drill })

/-- BELL_NOW is refused FIELD, ALARM and NO-PATTERN in that order. Accepted, it merges into the lowest tone generator that
plays a bell of its pattern and priority in step 0 of its first pass: the zones are added, the claim grows, and the answer
has outcome MERGED and that generator; where no zone is added, the merge is counted and nothing else changes. Otherwise
the lowest IDLE tone generator starts the pattern at the clamped priority on the zones, and the answer has outcome STARTED
and the generator. With none IDLE, the request meets the bell queue, and the answer is QUEUED with the position and the
priority, or FULL with the priority. (When the events of a frame are taken: assumption 2.) (Data octets: assumptions 9 to
11.) -/
def Obligations.BellNowResult : Prop :=
  ∀ (tag : Octet) (zones : ZoneSet) (pattern prio : Octet) (s : State),
    let c : Instr := .bellNow tag zones pattern prio
    let n := max 1 (min 13 prio.toNat)
    ((15 < pattern.toNat ∨ zones = 0) → exec c s = .next (respond tag 0x0C .field [] (s.begun c)))
    ∧ (pattern.toNat ≤ 15 → zones ≠ 0 →
      (s.settle.drill.state ≠ .idle → exec c s = .next (respond tag 0x0C .alarm [] (s.begun c)))
      ∧ (s.settle.drill.state = .idle →
        (s.settle.arb.pattern pattern.toNat = none → exec c s = .next (respond tag 0x0C .noPattern [] (s.begun c)))
        ∧ (∀ p : Pattern, s.Settled → s.NoPending → s.arb.pattern pattern.toNat = some p →
          let result : Result := if n = prio.toNat then .done else .clamped
          let merges (h : Fin 4) : Prop := s.gens[tgGen h].running = true ∧ s.gens[tgGen h].use = .bell
            ∧ s.gens[tgGen h].pattern = pattern.toNat ∧ s.gens[tgGen h].priority = n ∧ s.gens[tgGen h].stepIndex = 0
            ∧ s.gens[tgGen h].repeats = s.gens[tgGen h].passRepeats
          (∀ (g : Fin 4) (st : Word32), merges g → (∀ h < g, ¬merges h) → s.gens[tgGen g].stamp = some st →
            (s.gens[tgGen g].zones ||| zones = s.gens[tgGen g].zones →
              Responds c s tag 0x0C result [1, oct g.val]
                ((s.begun c).modArb fun a => { a with merged := min (a.merged + 1) 65535 }))
            ∧ (s.gens[tgGen g].zones ||| zones ≠ s.gens[tgGen g].zones →
              ∃ u k, Responds c s tag 0x0C result [1, oct g.val] u
              ∧ u.gens = s.gens.set (tgGen g) { s.gens[tgGen g] with zones := s.gens[tgGen g].zones ||| zones }
              ∧ u.claims = s.claims.set (tgClaimant g) (some k) ∧ k.priority = n
              ∧ k.wanted = (s.gens[tgGen g].zones ||| zones) ∧ k.stamp = st
              ∧ u.arb = { s.arb with merged := min (s.arb.merged + 1) 65535 } ∧ u.pages = s.pages
              ∧ u.still = (s.begun c).still))
          ∧ ((∀ h, ¬merges h) →
            (∀ g : Fin 4, s.gens[tgGen g].running = false → (∀ h : Fin 4, h < g → s.gens[tgGen h].running = true) →
              ∃ u k, Responds c s tag 0x0C result [0, oct g.val] u
                ∧ u.gens = s.gens.set (tgGen g) { u.gens[tgGen g] with
                    running := true, use := .bell, held := false, pattern := pattern.toNat, priority := n, zones
                    page := none, stamp := some s.elapsed, origin := some .manual, stepIndex := 0, phase := 0
                    repeats := .finite (max 1 p.repeatCount), passRepeats := .finite (max 1 p.repeatCount) }
                ∧ u.claims = s.claims.set (tgClaimant g) (some k) ∧ k.priority = n ∧ k.wanted = zones
                ∧ k.stamp = s.elapsed
                ∧ u.arb = { s.arb with started := min (s.arb.started + 1) 65535 } ∧ u.pages = s.pages
                ∧ u.still = (s.begun c).still)
            ∧ ((∀ g : Fin 4, s.gens[tgGen g].running = true) → ∀ u : State,
              (∀ i, meetBellQueue zones pattern.toNat n .manual (s.begun c) = (u, .queued i) →
                Responds c s tag 0x0C .queued [2, oct i, oct n] u)
              ∧ (∀ i, meetBellQueue zones pattern.toNat n .manual (s.begun c) = (u, .queueMerged i) →
                Responds c s tag 0x0C .queued [3, oct i, oct n] u)
              ∧ (meetBellQueue zones pattern.toNat n .manual (s.begun c) = (u, .dropped) →
                Responds c s tag 0x0C .full [4, oct n] u))))))

/-- A bell request that finds no generator: added to the queued entry of its pattern and priority, or appended while the
queue holds fewer than 8, or dropped. The hand-over of an IDLE tone generator: a head that has waited longer than the late
limit, or whose pattern is empty, is removed, counted and reported by BELL-DROP, and the next is examined; any other head
is removed and starts; with an empty queue, and on a generator that is RUNNING, nothing happens. -/
def Obligations.BellQueueMeetsRequest : Prop :=
  (∀ (zones : ZoneSet) (pattern prio : Nat) (o : Origin) (s : State),
    (∀ l r rest, s.arb.queue = l ++ r :: rest → r.pattern = pattern → r.priority = prio →
      (∀ x ∈ l, ¬(x.pattern = pattern ∧ x.priority = prio)) →
      meetBellQueue zones pattern prio o s =
        (s.modArb fun a => { a with queue := l ++ { r with zones := r.zones ||| zones } :: rest,
                                    queueMerged := bump a.queueMerged }, .queueMerged l.length))
    ∧ ((∀ x ∈ s.arb.queue, ¬(x.pattern = pattern ∧ x.priority = prio)) →
      (s.arb.queue.length < 8 →
        meetBellQueue zones pattern prio o s =
          (s.modArb fun a => { a with queue := a.queue ++ [⟨zones, pattern, prio, o, s.elapsed⟩],
                                      queued := bump a.queued }, .queued s.arb.queue.length))
      ∧ (8 ≤ s.arb.queue.length → ∃ t, meetBellQueue zones pattern prio o s = (t, .dropped)
        ∧ t.arb = { s.arb with fullDrop := min (s.arb.fullDrop + 1) 65535 }
        ∧ { t.silent with arb := s.arb } = s.silent)))
  ∧ ∀ (g : Fin 4) (s : State),
    (s.gens[tgGen g].running = true → handOver g s = s) ∧ (s.arb.queue = [] → handOver g s = s)
    ∧ (∀ r rest, s.gens[tgGen g].running = false → s.arb.queue = r :: rest →
      let waited := (s.elapsed - r.stamp).toNat
      (s.arb.lateLimit < waited → handOver g s = handOver g (bellDrop .late r.zones r.pattern r.priority r.origin
        (s.modArb fun a => { a with queue := rest, lateDiscard := min (a.lateDiscard + 1) 65535 })))
      ∧ (waited ≤ s.arb.lateLimit → s.arb.pattern r.pattern = none →
        handOver g s = handOver g (bellDrop .empty r.zones r.pattern r.priority r.origin
          (s.modArb fun a => { a with queue := rest, emptyDiscard := min (a.emptyDiscard + 1) 65535 })))
      ∧ (∀ q, waited ≤ s.arb.lateLimit → s.arb.pattern r.pattern = some q →
        handOver g s = startBell g r (s.modArb fun a => { a with queue := rest })))

/-- PATTERN WRITE: DEFINE puts a draft with clamped fields and every position unfilled, answered CLAMPED where a field was
clamped and DONE otherwise, or is refused FIELD; STORE without a draft is refused STATE, with an unfilled position STATE
with the first of them, while a RUNNING generator plays the target IN-USE, and otherwise copies the draft into the table,
answered DONE; EMPTY above 15 is refused FIELD, while a RUNNING generator plays the entry IN-USE, and otherwise empties
it, answered DONE; an unknown operation is refused FIELD. Every answer carries the operation and the pattern index
concerned, and 0 stands for the index where there is no draft (assumption 10). (When the events of a frame are taken:
assumption 2.) (Data octets: assumptions 9 to 11.) -/
def Obligations.PatternWriteResults : Prop :=
  ∀ (tag pattern : Octet) (toneA toneB amplitude : Word16) (inverted : Bool) (repeatCount stepCount op : Octet)
    (s : State),
    (15 < pattern.toNat →
      let c : Instr := .patternWriteDefine tag pattern toneA toneB amplitude inverted repeatCount stepCount
      exec c s = .next (respond tag 0x0D .field [0, pattern] (s.begun c)))
    ∧ (pattern.toNat ≤ 15 →
      let c : Instr := .patternWriteDefine tag pattern toneA toneB amplitude inverted repeatCount stepCount
      let a := max 100 (min 3000 toneA.toNat)
      let b := max 100 (min 3000 toneB.toNat)
      let clamped : Bool := decide (a ≠ toneA.toNat ∨ (toneB ≠ 0 ∧ b ≠ toneB.toNat) ∨ 32767 < amplitude.toNat
        ∨ stepCount = 0 ∨ 8 < stepCount.toNat)
      let u := s.begun c
      let d : Draft :=
        { target := pattern.toNat, toneA := a, toneB := if toneB = 0 then none else some b
          amplitude := min 32767 amplitude.toNat, inverted, repeatCount := repeatCount.toNat
          steps := List.replicate (max 1 (min 8 stepCount.toNat)) none }
      Responds c s tag 0x0D (if clamped then .clamped else .done) [0, pattern]
        { u with arb := { u.arb with draft := some d } })
    ∧ (s.settle.arb.draft = none →
      exec (.patternWriteStore tag) s = .next (respond tag 0x0D .state [2, 0] (s.begun (.patternWriteStore tag))))
    ∧ (∀ (d : Draft) (n : Fin 16), s.settle.arb.draft = some d → d.target = n.val → (∀ x ∈ d.steps, x.isSome = true) →
      (∀ g : Fin 5, s.settle.gens[g].running = true → s.settle.gens[g].pattern ≠ n.val) →
      let u := s.begun (.patternWriteStore tag)
      let p : Pattern :=
        { toneA := d.toneA, toneB := d.toneB, amplitude := d.amplitude, inverted := d.inverted
          repeatCount := d.repeatCount, steps := d.steps.filterMap id }
      Responds (.patternWriteStore tag) s tag 0x0D .done [2, oct n.val]
        { u with arb := { u.arb with draft := none, patterns := u.arb.patterns.set n (some p) } })
    ∧ (∀ (d : Draft) (n : Nat), s.settle.arb.draft = some d → d.steps[n]? = some none →
      (∀ k < n, ∃ st : PatStep, d.steps[k]? = some (some st)) →
      RespondsOnly (.patternWriteStore tag) s tag 0x0D .state [2, oct d.target, oct n])
    ∧ (∀ (d : Draft) (g : Fin 5), s.settle.arb.draft = some d → (∀ x ∈ d.steps, x.isSome = true) →
      s.settle.gens[g].running = true → s.settle.gens[g].pattern = d.target →
      RespondsOnly (.patternWriteStore tag) s tag 0x0D .inUse [2, oct d.target])
    ∧ (15 < pattern.toNat → RespondsOnly (.patternWriteEmpty tag pattern) s tag 0x0D .field [3, pattern])
    ∧ (∀ n : Fin 16, pattern.toNat = n.val →
      (∀ g : Fin 5, s.settle.gens[g].running = true → s.settle.gens[g].pattern ≠ n.val) →
      let u := s.begun (.patternWriteEmpty tag pattern)
      Responds (.patternWriteEmpty tag pattern) s tag 0x0D .done [3, pattern]
        { u with arb := { u.arb with patterns := u.arb.patterns.set n none } })
    ∧ (∀ g : Fin 5, pattern.toNat ≤ 15 → s.settle.gens[g].running = true → s.settle.gens[g].pattern = pattern.toNat →
      exec (.patternWriteEmpty tag pattern) s =
        .next (respond tag 0x0D .inUse [3, pattern] (s.begun (.patternWriteEmpty tag pattern))))
    ∧ (let c : Instr := .patternWriteUnknownOperation tag op
      RespondsOnly c s tag 0x0D .field [op, oct ((s.settle.arb.draft.map (·.target)).getD 0)])

/-- PATTERN WRITE STEPS: without a draft STATE; a position beyond the step count, an unknown kind, or kind B without a
tone B is FIELD and changes nothing; otherwise the positions take the steps, each duration clamped to 1–500 units of 10
ms. (When the events of a frame are taken: assumption 2.) (Data octets: assumptions 9 to 11.) -/
def Obligations.PatternStepsFill : Prop :=
  ∀ (tag first : Octet) (words : Vector Word16 4) (count : Fin 4) (s : State),
    let c : Instr := .patternWriteSteps tag first words count
    (s.settle.arb.draft = none → exec c s = .next (respond tag 0x0D .state [1, 0] (s.begun c)))
    ∧ (∀ d : Draft, s.settle.arb.draft = some d →
      (d.steps.length < first.toNat + count.val + 1 →
        exec c s = .next (respond tag 0x0D .field [1, oct d.target] (s.begun c)))
      ∧ (∀ j : Fin 4, j ≤ count → (3 ≤ words[j].toNat / 16384 ∨ (words[j].toNat / 16384 = 1 ∧ d.toneB = none)) →
        exec c s = .next (respond tag 0x0D .field [1, oct d.target] (s.begun c)))
      ∧ (first.toNat + count.val + 1 ≤ d.steps.length →
        (∀ j : Fin 4, j ≤ count → words[j].toNat / 16384 < 3 ∧ (words[j].toNat / 16384 = 1 → d.toneB.isSome = true)) →
        Answers (exec c s) fun t => ∃ e : Draft, t.arb.draft = some e
          ∧ e = { d with steps := e.steps } ∧ e.steps.length = d.steps.length
          ∧ (∀ j : Fin 4, j ≤ count → ∃ st : PatStep, e.steps[first.toNat + j.val]? = some (some st)
              ∧ st.kind.code = words[j].toNat / 16384 ∧ st.units = max 1 (min 500 (words[j].toNat % 16384)))
          ∧ (∀ i, (i < first.toNat ∨ first.toNat + count.val < i) → e.steps[i]? = d.steps[i]?)
          ∧ t.arb.patterns = s.arb.patterns
          ∧ { t.silent with arb := s.arb } = { s.settle.silent with arb := s.arb }))

/-! ## Frames -/

/-- FRAME, the frame before being complete: the phases advance, the frames of the frame before are `sent`, each port's new
frame carries its sync pattern, the next piece of the cell it is sending and, on a leg, the slot samples of the frame
before (zeros while DOWN); the contacts are sampled; a zone saturated in the frame before has that counted, unless a READ
of that frame has counted it (assumption 32); the contest of the frame before is forgotten (assumptions 36 and 37); the
ticks and the departures of idle ports fall due. Queues, sync states, claims, schedule, rooms, drill, parameters and
tables stand. That ticks and departures are events of their own is the model's reading (assumption 2). -/
def Obligations.FrameBegins : Prop :=
  ∀ (x : FrameInput) (s : State), s.due = [] → Answers (exec (.frame x) s) fun t =>
    (s.tickPhase < 7 → t.tickPhase = s.tickPhase + 1) ∧ (t.due.contains .millisecondTick = decide (s.tickPhase = 7))
    ∧ t.clock = { s.clock with framePhase := t.clock.framePhase }
    ∧ (s.clock.state = .unset → t.clock = s.clock ∧ t.due.contains .clockTick = false)
    ∧ (s.clock.state ≠ .unset → (s.clock.framePhase < 7 → t.clock.framePhase = s.clock.framePhase + 1)
        ∧ t.due.contains .clockTick = decide (s.clock.framePhase = 7))
    ∧ t.sent = s.sending
    ∧ (∀ p : Fin 5, t.due.contains (.cellDeparture p) = s.ports[p].tx.isNone
        ∧ t.ports[p].queue = s.ports[p].queue ∧ t.ports[p].up = s.ports[p].up
        ∧ t.sending[p].control.toNat / 16 = (if p = 4 then 0x29C else 0x4E5)
        ∧ (s.ports[p].tx = none → t.sending[p].control.toNat % 16 = 0 ∧ t.sending[p].fragment = Vector.replicate 4 0)
        ∧ (∀ c n, s.ports[p].tx = some ⟨c, n⟩ → 1 ≤ n →
            t.sending[p].control.toNat % 16 = 1 ∧ (∀ i : Fin 4, t.sending[p].fragment[i] = c.octets.getD (4 * n + i.val) 0)
            ∧ t.ports[p].tx = if n < 3 then some ⟨c, n + 1⟩ else none))
    ∧ (∀ l : Fin 4, t.sending[legPort l].samples =
        (List.finRange 4).map fun k => if s.ports[legPort l].up then s.slotSamples[zoneOf l k] else 0)
    ∧ (∀ i : Fin 4, t.inputs[i] = { s.inputs[i] with
        raw := x.contacts.getLsbD i.val
        changeStamp := if s.inputs[i].raw = x.contacts.getLsbD i.val then s.inputs[i].changeStamp
          else if s.tickPhase = 7 then s.elapsed + 1 else s.elapsed })
    ∧ (∀ p : Fin 8, t.pages[p] = { s.pages[p] with silenceStamp := t.pages[p].silenceStamp })
    ∧ (∀ z : Fin 16, t.zones[z] = { s.zones[z] with
        clip := if s.clipDue.getLsbD z.val then min (s.zones[z].clip + 1) 65535 else s.zones[z].clip })
    ∧ (∀ g : Fin 5, t.gens[g] = { s.gens[g] with phase := t.gens[g].phase })
    ∧ t.contest = { taken := 0, gained := Vector.replicate 13 0, excused := Vector.replicate 8 (Vector.replicate 13 0)
                    eased := 0, now := { taken := 0, joined := Vector.replicate 13 0, cleared := Vector.replicate 13 0
                                         fresh := Vector.replicate 8 (Vector.replicate 13 0), eased := 0, held := 0 } }
    ∧ { t with tickPhase := s.tickPhase, clock := s.clock, gens := s.gens, zones := s.zones, pages := s.pages
               detectors := s.detectors, slotSamples := s.slotSamples, inputs := s.inputs, ports := s.ports
               sending := s.sending, sent := s.sent, contest := s.contest, clipDue := s.clipDue, due := s.due } = s

/-- Reception in a FRAME, the frame before being complete. In SYNC or UP a good frame, one with the pattern of its
direction, sets the bad count to 0, and any other, a missing one too, raises it and the bad-frame counter and discards the
pieces of a cell; out of sync a good frame one period after the last raises the good count, another good one sets it to 1,
and where none is found it is 0. At four bad frames TRUNK_SYNC_LOSS or LEG_DOWN falls due, at two good ones
TRUNK_SYNC_GAIN or LEG_UP. A first piece takes the capture record of the frame; with the fourth piece the cell is received
and counted, and the row of the table that it is falls due. (A missing leg frame, and no frame found: assumption 35.) -/
def Obligations.FramesCounted : Prop :=
  ∀ (x : FrameInput) (s : State), s.due = [] → Answers (exec (.frame x) s) fun t =>
    let found (p : Fin 5) (spaced : Bool) (f : LegFrame) : Prop :=
      (∃ l : Fin 4, p = legPort l ∧ x.legs[l] = .arrived spaced f ∧ f.control.toNat / 16 = 0x35A)
      ∨ (p = trunkPort ∧ f.control.toNat / 16 = 0x6D3
        ∧ ∃ g : TrunkFrame, x.trunk = .arrived spaced g ∧ g.control = f.control ∧ g.fragment = f.fragment)
    let good (p : Fin 5) : Prop := ∃ spaced f, found p spaced f
    let received (p : Fin 5) (c : Cell) : Instr := match portLeg p with
      | some leg => decodeLegCell leg c
      | none => decodeTrunkCell c s.ports[p].assembler.capture
    (∀ p : Fin 5, let old := s.ports[p]
      let new := t.ports[p]
      new.up = old.up
      ∧ (old.up = true →
        (good p → new.bad = 0 ∧ new.badFrames = old.badFrames)
        ∧ (¬good p → new.bad = old.bad + 1 ∧ new.badFrames = min (old.badFrames + 1) 65535
            ∧ new.assembler.pieces = []))
      ∧ (old.up = false →
        (∀ f, found p true f → new.good = old.good + 1) ∧ (∀ f, found p false f → new.good = 1)
        ∧ (¬good p → new.good = 0) ∧ new.badFrames = old.badFrames ∧ new.assembler = old.assembler)
      ∧ (∀ spaced f, old.up = true → found p spaced f →
        (f.control.toNat % 4 = 3 → new.assembler.pieces = [f.fragment]
          ∧ new.assembler.capture.elapsed = (if s.tickPhase = 7 then s.elapsed + 1 else s.elapsed)
          ∧ (let k := if s.clock.state ≠ .unset ∧ s.clock.framePhase = 7 then s.clock.tick else s.clock
            new.assembler.capture.timeOfDay = k.timeOfDay ∧ new.assembler.capture.day = k.day))
        ∧ (∀ a b d, f.control.toNat % 4 = 1 → old.assembler.pieces = [a, b, d] →
          new.assembler.pieces = [] ∧ new.received = min (old.received + 1) 65535
          ∧ t.due.contains (received p (Cell.ofOctets ([a, b, d, f.fragment].flatMap fun y => y.toList))) = true)))
    ∧ t.due.contains .trunkSyncLoss = (s.ports[trunkPort].up && decide (4 ≤ t.ports[trunkPort].bad))
    ∧ t.due.contains .trunkSyncGain = (!s.ports[trunkPort].up && decide (2 ≤ t.ports[trunkPort].good))
    ∧ (∀ l : Fin 4, t.due.contains (.legDown l) = (s.ports[legPort l].up && decide (4 ≤ t.ports[legPort l].bad))
      ∧ t.due.contains (.legUp l) = (!s.ports[legPort l].up && decide (2 ≤ t.ports[legPort l].good)))

/-- The audio of a frame: a zone's sample is floor((A·Ga·128 + B·Gb·D + 8192) / 16384), saturated, or 0 while it is
WAKING, TESTING, or SHORT below priority 14; A is the sample of its owner, B that of its background channel. A RUNNING
generator gives a square wave, 0 in SILENCE, and its phase advances; a detector's envelope follows the magnitude of its
channel, and crosses its two thresholds. Whether a zone is saturated is decided on the unsaturated sample, whatever mutes
it; the count itself is taken in a READ of the frame or at its end (assumption 32). -/
def Obligations.FrameAudioMix : Prop :=
  ∀ (x : FrameInput) (s : State), s.due = [] → Answers (exec (.frame x) s) fun t =>
    let trunk (i : Fin 8) : Int := (trunkSamples x s)[i]
    let gen (g : Fin 5) : Int := s.gens[g].sample s.arb
    (∀ (i : Fin 8) sp f, x.trunk = .arrived sp f → s.ports[trunkPort].up = true → f.control.toNat / 16 = 0x6D3 →
      trunk i = f.samples[i].toInt)
    ∧ ((s.ports[trunkPort].up = false ∨ x.trunk = .missing
        ∨ ∃ sp f, x.trunk = .arrived sp f ∧ f.control.toNat / 16 ≠ 0x6D3) → ∀ i, trunk i = 0)
    ∧ (∀ (g : Fin 5) (p : Pattern) (st : PatStep), s.gens[g].running = true →
        s.arb.pattern s.gens[g].pattern = some p → p.steps[s.gens[g].stepIndex]? = some st →
        gen g = (if st.kind = .silence then 0
          else if (s.gens[g].phase.toNat < 32768) = (p.inverted = false) then (p.amplitude : Int) else -(p.amplitude : Int))
        ∧ t.gens[g].phase = s.gens[g].phase + BitVec.ofNat 16 s.gens[g].increment)
    ∧ (∀ g : Fin 5, s.gens[g].running = false → gen g = 0 ∧ t.gens[g].phase = s.gens[g].phase)
    ∧ (∀ (z : Fin 16) (a : Int),
        ((s.zones[z].owner = none ∧ a = 0)
          ∨ (∃ p : Fin 8, s.zones[z].owner = some (pageClaimant p) ∧ s.pages[p].state = .live ∧ a = trunk p)
          ∨ (∃ (p : Fin 8) (g : Fin 4), s.zones[z].owner = some (pageClaimant p) ∧ s.pages[p].state = .chiming
              ∧ s.pages[p].chimeGen = some g ∧ a = gen (tgGen g))
          ∨ (∃ g : Fin 4, s.zones[z].owner = some (tgClaimant g) ∧ a = gen (tgGen g))
          ∨ (s.zones[z].owner = some egClaimant ∧ a = gen egGen)) →
        let b := (s.zones[z].background.map trunk).getD 0
        let u := (a * s.zones[z].ga * 128 + b * s.zones[z].gb * s.zones[z].duck + 8192) / 16384
        let mute : Prop := s.zones[z].power = .waking ∨ s.zones[z].test = .testing
          ∨ (s.zones[z].health = .short ∧ ¬∃ n, s.ownerPriority z = some n ∧ 14 ≤ n)
        (mute → t.slotSamples[z] = 0) ∧ (¬mute → t.slotSamples[z] = max (-32768) (min 32767 u))
        ∧ t.clipDue.getLsbD z.val = decide (u < -32768 ∨ 32767 < u))
    ∧ (∀ p : Fin 8,
        let m := min (trunk p).natAbs 32767
        let e := s.detectors[p].envelope
        t.detectors[p].envelope = (if e ≤ m then m else e - (e + 255) / 256)
        ∧ t.detectors[p].active = (if s.detectors[p].active then decide (s.za.detLow ≤ t.detectors[p].envelope)
            else decide (s.za.detHigh ≤ t.detectors[p].envelope))
        ∧ (t.pages[p].silenceStamp =
            if s.detectors[p].active = true ∧ t.detectors[p].active = false ∧ s.pages[p].state = .live then
              some (if s.tickPhase = 7 then s.elapsed + 1 else s.elapsed)
            else s.pages[p].silenceStamp))

/-- The table of the assembler. The four pieces of a cell, taken in four successive frames, are that cell, with the
capture record of the first. A frame with cell-valid clear discards the pieces and counts an assembly error, and does
nothing while EMPTY; a first piece begins a cell with its frame as the capture frame, and discards and counts what was
there; a further piece is added, and while EMPTY is discarded and counted. -/
def Obligations.PiecesReassemble : Prop :=
  ∀ (c : Cell) (cap cap1 cap2 cap3 : Capture) (f : Fragment) (x : Port),
    let error := min (x.assemblyErrors + 1) 65535
    let count := if x.assembler.pieces = [] then x.assemblyErrors else error
    (let a := x.assemble cap true true (pieceOf c 0)
     let b := a.1.assemble cap1 true false (pieceOf c 1)
     let d := b.1.assemble cap2 true false (pieceOf c 2)
     let e := d.1.assemble cap3 true false (pieceOf c 3)
     a.2 = none ∧ b.2 = none ∧ d.2 = none ∧ e.2 = some (c, cap)
      ∧ e.1 = { x with assembler := e.1.assembler, received := min (x.received + 1) 65535, assemblyErrors := count }
      ∧ e.1.assembler.pieces = [])
    ∧ (∀ start, let t := (x.assemble cap false start f).1
      (x.assemble cap false start f).2 = none ∧ t.assembler.pieces = []
      ∧ t = { x with assembler := t.assembler, assemblyErrors := count }
      ∧ (x.assembler.pieces = [] → t = x))
    ∧ x.assemble cap true true f = ({ x with assembler := { pieces := [f], capture := cap }, assemblyErrors := count }, none)
    ∧ (x.assembler.pieces = [] → x.assemble cap true false f = ({ x with assemblyErrors := error }, none))
    ∧ (x.assembler.pieces ≠ [] → x.assembler.pieces.length < 3 → x.assemble cap true false f =
      ({ x with assembler := { x.assembler with pieces := x.assembler.pieces ++ [f] } }, none))

/-! ## Zones, pages, amplifiers -/

/-- The owner of a zone: an admitted claimant that wants it, or none when there is none; at the highest priority
contending; the present owner keeps it while it contends and no contender has a strictly higher priority; otherwise, among
equals, the oldest claim takes it, and at equal age the lowest claimant number. Equals contest the zone with its owner
only where one of them that is older, or of a lower number at equal age, joins the zone in this event, and the owner took
the zone in an earlier event of the frame, or took it in this one having gained there by an earlier one; then the oldest
of all equals takes it (R73; assumption 36). A re-evaluation hands the zone to that owner and to no other zone's, and a
zone that changes hands counts as taken in the event. So of two claims of one priority that arrive by two events of one
frame for a zone that nobody else contends for, the older one, or at equal age that of the lower number, ends as the
owner, whichever came first. -/
def Obligations.OwnerRule : Prop :=
  (∀ (z : Fin 16) (s : State),
    let better (c : Fin 13) (k : Claim) (d : Fin 13) (j : Claim) : Prop :=
      (s.elapsed - j.stamp).toNat < (s.elapsed - k.stamp).toNat
      ∨ ((s.elapsed - j.stamp).toNat = (s.elapsed - k.stamp).toNat ∧ c < d)
    let contested (o : Fin 13) : Prop := if s.contest.now.taken.getLsbD z.val = true
      then s.contest.gained[o].getLsbD z.val = true else s.contest.taken.getLsbD z.val = true
    (s.decideOwner z = none ↔ ∀ c, s.contends z c = none)
    ∧ (∀ c k, s.contends z c = some k ↔
        s.claims[c] = some k ∧ k.wanted.getLsbD z.val = true ∧ s.floor z ≤ k.priority)
    ∧ (∀ c, s.decideOwner z = some c → ∃ k, s.contends z c = some k
        ∧ (∀ d j, s.contends z d = some j → j.priority ≤ k.priority)
        ∧ (s.zones[z].owner ≠ some c →
            (∀ d j, d ≠ c → s.contends z d = some j → j.priority = k.priority → better c k d j)
            ∧ (∀ o m, s.zones[z].owner = some o → s.contends z o = some m → m.priority = k.priority →
              (∃ d j, s.contends z d = some j ∧ j.priority = k.priority ∧ better d j o m
                ∧ s.contest.now.joined[d].getLsbD z.val = true)
              ∧ contested o)))
    ∧ (∀ o k, s.zones[z].owner = some o → s.contends z o = some k →
        (∀ d j, s.contends z d = some j → j.priority ≤ k.priority) →
        ((∀ d j, s.contends z d = some j → j.priority = k.priority → better d j o k →
            s.contest.now.joined[d].getLsbD z.val = false)
          ∨ ¬contested o) →
        s.decideOwner z = some o)
    ∧ (∀ w, (reevalZone w z s).zones[z].owner = s.decideOwner z
        ∧ (∀ y : Fin 16, y ≠ z → (reevalZone w z s).zones[y].owner = s.zones[y].owner)
        ∧ ∀ y : Fin 16, (reevalZone w z s).contest.now.taken.getLsbD y.val
            = (s.contest.now.taken.getLsbD y.val || decide (y = z ∧ s.decideOwner z ≠ s.zones[z].owner))))
  ∧ ∀ (z : Fin 16) (c d : Fin 13) (n : Nat) (v w : ZoneSet) (a b : Word32) (s : State),
    c ≠ d → v.getLsbD z.val = true → w.getLsbD z.val = true → s.floor z ≤ n → s.zones[z].owner = none →
    (∀ e, s.contends z e = none) → s.NoPending → s.NoEvent →
    ((s.elapsed - b).toNat < (s.elapsed - a).toNat ∨ ((s.elapsed - b).toNat = (s.elapsed - a).toNat ∧ c < d)) →
    (asEvent (changeClaim d n w b) (asEvent (changeClaim c n v a) s)).zones[z].owner = some c
    ∧ (asEvent (changeClaim c n v a) (asEvent (changeClaim d n w b) s)).zones[z].owner = some c

/-- ZONE_MODE with a mode code above 3 and ZONE_AUDIO with a channel above 7 are refused FIELD. An accepted ZONE_MODE, no
page PENDING and no event in progress (assumption 36), sets the mode of the zones of the set; those whose mode changed
have the owner that the rule of ownership decides under the new floor, and wake from STANDBY under DAY or QUIET. An
accepted ZONE_AUDIO sets the gains, the background channel and the depth, clamped, in the zones of the set and touches
nothing else. (When the events of a frame are taken: assumption 2.) -/
def Obligations.ZoneSettingsWritten : Prop :=
  ∀ (tag : Octet) (zones : ZoneSet) (mode : Octet) (ga gb : Word16) (channel depth : Octet) (noChannel : Bool) (s : State),
    (3 < mode.toNat → RespondsOnly (.zoneMode tag zones mode) s tag 0x15 .field [])
    ∧ (∀ m : Mode, mode.toNat = m.code → s.Settled → s.NoPending → s.NoEvent →
      Answers (exec (.zoneMode tag zones mode) s) fun t =>
        (∀ z : Fin 16, t.zones[z].settings =
          { s.zones[z].settings with mode := if zones.getLsbD z.val then m else s.zones[z].mode })
        ∧ (∀ z : Fin 16, zones.getLsbD z.val = true → s.zones[z].mode ≠ m → t.zones[z].owner = t.decideOwner z
            ∧ (s.zones[z].power = .standby → (m = .day ∨ m = .quiet) → t.zones[z].power = .waking
                ∧ t.zones[z].wakeStamp = some s.elapsed))
        ∧ (∀ z : Fin 16, (zones.getLsbD z.val = false ∨ s.zones[z].mode = m) →
            t.zones[z].owner = s.zones[z].owner ∧ t.zones[z].power = s.zones[z].power)
        ∧ t.claims = s.claims ∧ t.pages = s.pages ∧ t.gens = s.gens
        ∧ { t.still with zones := s.zones } = { (s.begun (.zoneMode tag zones mode)).still with zones := s.zones })
    ∧ (let c : Instr := .zoneAudio tag zones ga gb channel noChannel depth
      (noChannel = false → 7 < channel.toNat → RespondsOnly c s tag 0x14 .field [])
      ∧ (∀ bg : Option (Fin 8), s.Settled →
        (if noChannel then bg = none else bg.map (·.val) = some channel.toNat) →
        Answers (exec c s) fun t =>
          (∀ z : Fin 16, t.zones[z] = if zones.getLsbD z.val then
            { s.zones[z] with ga := min 255 ga.toNat, gb := min 255 gb.toNat, background := bg
                              depth := min 128 depth.toNat }
            else s.zones[z])
          ∧ { t.silent with zones := s.zones } = { s.silent with zones := s.zones }))

/-- PAGE_OPEN is refused FIELD, then BUSY. Accepted without chime and free to start, no page PENDING, the page is LIVE
with its record, its claim stands with the clamped priority and the present stamp, and a free zone that no other claim
contends for is its own. With a chime, no bell waiting, the lowest IDLE tone generator starts the chime with the page's
priority and without zones, stamp or origin, and the page is CHIMING with it; where the pattern is empty or no tone
generator is IDLE, the chime is refused and counted, and the page is LIVE with its chime skipped. An all-or-none page that
would not win an admitted zone is PENDING and claims nothing, no claim is excused against it, and it counts as freed of
none in the frame (assumptions 36 and 37). (When the events of a frame are taken: assumption 2.) -/
def Obligations.PageOpens : Prop :=
  ∀ (tag channel prio : Octet) (zones : ZoneSet) (chime : Octet) (chimeAbsent allOrNone silenceClose : Bool) (s : State),
    let c : Instr := .pageOpen tag channel prio zones chime chimeAbsent allOrNone silenceClose
    let n := max 1 (min 13 prio.toNat)
    ((7 < channel.toNat ∨ (chimeAbsent = false ∧ 15 < chime.toNat)) → RespondsOnly c s tag 0x08 .field [])
    ∧ (∀ p : Fin 8, channel.toNat = p.val → (chimeAbsent = true ∨ chime.toNat ≤ 15) →
      (s.pages[p].state ≠ .free → RespondsOnly c s tag 0x08 .busy [])
      ∧ (s.Settled → s.NoPending → s.pages[p].state = .free →
        (chimeAbsent = true → allOrNone = false → Answers (exec c s) fun t =>
          t.pages[p] = { state := .live, priority := n, wanted := zones, chime := none, chimeGen := none
                         chimeSkipped := false, allOrNone := false, silenceClose, openStamp := s.elapsed, tag
                         silenceStamp := some s.elapsed }
          ∧ (∃ k, t.claims[pageClaimant p] = some k ∧ k.priority = n ∧ k.wanted = zones ∧ k.stamp = s.elapsed)
          ∧ (∀ z : Fin 16, zones.getLsbD z.val = true → s.zones[z].owner = none → s.floor z ≤ n →
              (∀ d, d ≠ pageClaimant p → s.contends z d = none) → t.zones[z].owner = some (pageClaimant p))
          ∧ (∀ d, d ≠ pageClaimant p → t.claims[d] = s.claims[d]) ∧ (∀ q : Fin 8, q ≠ p → t.pages[q] = s.pages[q])
          ∧ t.gens = s.gens ∧ t.arb = s.arb ∧ t.still = (s.begun c).still)
        ∧ (chimeAbsent = false → allOrNone = false →
          let opened (t : State) (st : PageState) (gen : Option (Fin 4)) (skipped : Bool) : Prop :=
            t.pages = s.pages.set p { state := st, priority := n, wanted := zones, chime := some chime.toNat, chimeGen := gen
                                      chimeSkipped := skipped, allOrNone := false, silenceClose, openStamp := s.elapsed
                                      tag, silenceStamp := if st = .live then some s.elapsed else none }
            ∧ (∃ k, t.claims = s.claims.set (pageClaimant p) (some k) ∧ k.priority = n ∧ k.wanted = zones
                ∧ k.stamp = s.elapsed)
            ∧ t.still = (s.begun c).still
          (∀ (pat : Pattern) (g : Fin 4), s.arb.queue = [] → s.arb.pattern chime.toNat = some pat →
            s.gens[tgGen g].running = false → (∀ h : Fin 4, h < g → s.gens[tgGen h].running = true) →
            Answers (exec c s) fun t => opened t .chiming (some g) false
              ∧ t.gens = s.gens.set (tgGen g) { t.gens[tgGen g] with
                  running := true, use := .chime, held := false, pattern := chime.toNat, priority := n, zones := 0
                  page := some p, stamp := none, origin := none, stepIndex := 0, phase := 0
                  repeats := .finite (max 1 pat.repeatCount), passRepeats := .finite (max 1 pat.repeatCount) }
              ∧ t.arb = { s.arb with chimesStarted := min (s.arb.chimesStarted + 1) 65535 })
          ∧ ((∀ g : Fin 4, s.gens[tgGen g].running = true) ∨ (s.arb.queue = [] ∧ s.arb.pattern chime.toNat = none) →
            Answers (exec c s) fun t => opened t .live none true ∧ t.gens = s.gens
              ∧ t.arb = { s.arb with chimesRefused := min (s.arb.chimesRefused + 1) 65535 }))
        ∧ (∀ (z : Fin 16) (d : Fin 13) (k : Claim), allOrNone = true → zones.getLsbD z.val = true → s.floor z ≤ n →
            s.zones[z].owner = some d → s.claims[d] = some k → n ≤ k.priority → Answers (exec c s) fun t =>
          t.pages[p].state = .pending ∧ t.pages[p].wanted = zones ∧ t.pages[p].priority = n
          ∧ t.pages[p].openStamp = s.elapsed ∧ t.claims = s.claims ∧ t.zones = s.zones ∧ t.gens = s.gens
          ∧ (∀ q : Fin 8, q ≠ p → t.pages[q] = s.pages[q])
          ∧ t.contest = { s.contest with
              excused := s.contest.excused.set p (Vector.replicate 13 0), eased := t.contest.eased }
          ∧ (∀ q : Fin 8, t.contest.eased.getLsbD q.val = (s.contest.eased.getLsbD q.val && decide (q ≠ p)))
          ∧ { t.silent with pages := s.pages, contest := s.contest } = { s.silent with pages := s.pages })))

/-- PAGE_CHANGE with an unknown operation or a channel above 7 is refused FIELD, on a FREE page STATE. On a LIVE page, no
page PENDING, the wanted set of the page and of its claim becomes the new one, the claim keeping priority and stamp, and a
zone that left the set is no longer the page's. (When the events of a frame are taken: assumption 2.) -/
def Obligations.PageChanges : Prop :=
  ∀ (tag channel op : Octet) (zones : ZoneSet) (s : State),
    RespondsOnly (.pageChangeUnknownOperation tag channel op zones) s tag 0x09 .field []
    ∧ (∀ (c : Instr) (f : ZoneSet → ZoneSet),
      ((c = .pageChangeWrite tag channel zones ∧ ∀ w, f w = zones)
        ∨ (c = .pageChangeSet tag channel zones ∧ ∀ w, f w = w ||| zones)
        ∨ (c = .pageChangeClear tag channel zones ∧ ∀ w, f w = w &&& ~~~zones)) →
      (7 < channel.toNat → RespondsOnly c s tag 0x09 .field [])
      ∧ (∀ p : Fin 8, channel.toNat = p.val →
        (s.pages[p].state = .free → RespondsOnly c s tag 0x09 .state [])
        ∧ (s.pages[p].state = .live → s.Settled → s.NoPending → Answers (exec c s) fun t =>
          t.pages = s.pages.set p { s.pages[p] with wanted := f s.pages[p].wanted }
          ∧ (∃ k, t.claims[pageClaimant p] = some k ∧ k.wanted = f s.pages[p].wanted
              ∧ k.priority = s.pages[p].priority ∧ k.stamp = s.pages[p].openStamp)
          ∧ (∀ d, d ≠ pageClaimant p → t.claims[d] = s.claims[d])
          ∧ (∀ z : Fin 16, (s.wanted (pageClaimant p)).getLsbD z.val = true →
              (f s.pages[p].wanted).getLsbD z.val = false → t.zones[z].owner ≠ some (pageClaimant p))
          ∧ t.gens = s.gens ∧ t.still = (s.begun c).still)))

/-- A LIVE page ends by its maximum duration, by silence or by PAGE_CLOSE, no page PENDING: it is FREE, its claim is
withdrawn and the zones it wanted are no longer its own; nothing else changes but what the zones' new owners bring.
PAGE_CLOSE is refused FIELD, and STATE on a FREE page. PENDING pages are re-examined, oldest open stamp first and at equal
age the lower slot first, each as those before it leave the zones: one starts, its claim placed with its priority and open
stamp and its chime asked for, when in every zone that it wants and that admits it the owner has a strictly lower priority
or there is none, no claim being excused against it (assumption 37); one that does not start stays as it is, but for what
the contest notes of the event in progress (assumption 37); each is tested once in a re-examination (assumption 8). So the
end of a LIVE page lets a PENDING one without chime start, where no other claim contends for its zones. A PENDING page
waits for one claim, that claim is withdrawn, and a higher claim than the page's takes its zones by another event of the
same frame, none being in progress: in either order the page ends LIVE with its claim standing and the higher claim owns
(R73; assumption 37). (When the events of a frame are taken: assumption 2.) (Data octets: assumptions 9 to 11.) -/
def Obligations.PageEnds : Prop :=
  (∀ (p : Fin 8) (tag channel : Octet) (st : Word32) (s : State),
    let ended (t : State) : Prop := t.pages = s.pages.set p { s.pages[p] with state := .free }
      ∧ t.claims = s.claims.set (pageClaimant p) none
      ∧ (∀ z : Fin 16, (s.wanted (pageClaimant p)).getLsbD z.val = true → t.zones[z].owner ≠ some (pageClaimant p))
      ∧ t.gens = s.gens
    (7 < channel.toNat → RespondsOnly (.pageClose tag channel) s tag 0x0A .field [])
    ∧ (channel.toNat = p.val → s.pages[p].state = .free → RespondsOnly (.pageClose tag channel) s tag 0x0A .state [])
    ∧ (s.pages[p].state = .live → s.NoPending →
      (s.IsDue (.pageMaxTime p) → s.za.pageMax * 1000 ≤ (s.elapsed - s.pages[p].openStamp).toNat →
        Answers (exec (.pageMaxTime p) s) fun t => ended t ∧ t.still = s.still)
      ∧ (s.IsDue (.pageSilence p) → s.pages[p].silenceClose = true → s.detectors[p].active = false →
        s.pages[p].silenceStamp = some st → s.za.pageSilence * 1000 ≤ (s.elapsed - st).toNat →
        Answers (exec (.pageSilence p) s) fun t => ended t ∧ t.still = s.still)
      ∧ (s.Settled → channel.toNat = p.val → ∃ u, ended u ∧ u.still = (s.begun (.pageClose tag channel)).still
        ∧ Responds (.pageClose tag channel) s tag 0x0A .done (u32 (s.elapsed - s.pages[p].openStamp).toNat) u)))
  ∧ (∀ u : State,
    let starts (q : Fin 8) (v : State) : State := if mayStart q v then askChime q (claimPage q v) else waitOn q v
    let pending (q : Fin 8) : Prop := u.pages[q].state = .pending
    let age (q : Fin 8) : Nat := (u.elapsed - u.pages[q].openStamp).toNat
    (∀ l : List (Fin 8), (∀ q, q ∈ l ↔ pending q) →
      l.Pairwise (fun q r => age r < age q ∨ (age q = age r ∧ q < r)) → reexamine u = l.foldl (fun v q => starts q v) u)
    ∧ (∀ q, (∀ d : Fin 13, u.contest.excused[q][d] = 0) → (mayStart q u = true ↔ (u.pages[q].allOrNone = true → ∀ (z : Fin 16) (d : Fin 13) (k : Claim),
        u.pages[q].wanted.getLsbD z.val = true → u.floor z ≤ u.pages[q].priority → u.zones[z].owner = some d →
        u.claims[d] = some k → k.priority < u.pages[q].priority)))
    ∧ (∀ q, { waitOn q u with contest := u.contest } = u
        ∧ { (waitOn q u).contest with now := u.contest.now } = u.contest)
    ∧ (∀ q, u.pages[q].chime = none → let t := askChime q (claimPage q u)
        t.pages = u.pages.set q { u.pages[q] with state := .live, silenceStamp := some u.elapsed } ∧ t.gens = u.gens
        ∧ ∃ k, t.claims = u.claims.set (pageClaimant q) (some k) ∧ k.priority = u.pages[q].priority
          ∧ k.wanted = u.pages[q].wanted ∧ k.stamp = u.pages[q].openStamp))
  ∧ (∀ (p q : Fin 8) (tag channel : Octet) (s : State), s.Settled → channel.toNat = p.val → s.pages[p].state = .live →
    s.pages[q].state = .pending → (∀ r : Fin 8, r ≠ q → s.pages[r].state ≠ .pending) → s.pages[q].chime = none →
    (∀ z : Fin 16, s.pages[q].wanted.getLsbD z.val = true → s.floor z ≤ s.pages[q].priority →
      (s.zones[z].owner = none ∨ s.zones[z].owner = some (pageClaimant p))
      ∧ ∀ d, d ≠ pageClaimant p → s.contends z d = none) →
    ∃ u k, Responds (.pageClose tag channel) s tag 0x0A .done (u32 (s.elapsed - s.pages[p].openStamp).toNat) u
      ∧ u.pages = (s.pages.set q { s.pages[q] with state := .live, silenceStamp := some s.elapsed }).set p
          { s.pages[p] with state := .free }
      ∧ u.claims = (s.claims.set (pageClaimant p) none).set (pageClaimant q) (some k) ∧ k.priority = s.pages[q].priority
      ∧ k.wanted = s.pages[q].wanted ∧ k.stamp = s.pages[q].openStamp ∧ u.gens = s.gens)
  ∧ (∀ (q : Fin 8) (c d : Fin 13) (n : Nat) (w : ZoneSet) (st : Word32) (y : Fin 16) (j : Claim) (s : State),
    let g := s.pages[q]
    let counts (z : Fin 16) : Prop := g.wanted.getLsbD z.val = true ∧ s.floor z ≤ g.priority
    s.NoEvent → c ≠ d → c ≠ pageClaimant q → d ≠ pageClaimant q → g.state = .pending → g.allOrNone = true → g.chime = none →
    (∀ r : Fin 8, r ≠ q → s.pages[r].state ≠ .pending) →
    counts y → s.zones[y].owner = some d → s.claims[d] = some j → g.priority ≤ j.priority →
    s.contest.excused[q][d].getLsbD y.val = false →
    (∀ (z : Fin 16) o, counts z → s.zones[z].owner = some o → s.contends z o ≠ none) →
    (∀ (z : Fin 16) e k, counts z → e ≠ d → s.contends z e = some k → k.priority < g.priority) →
    s.claims[c] = none → g.priority < n →
    let ends (t : State) : Prop := t.pages[q].state = .live
      ∧ (∃ k, t.claims[pageClaimant q] = some k ∧ k.priority = g.priority ∧ k.wanted = g.wanted ∧ k.stamp = g.openStamp)
      ∧ ∀ z : Fin 16, counts z → w.getLsbD z.val = true → t.zones[z].owner = some c
    ends (asEvent (dropClaim d) (asEvent (changeClaim c n w st) s))
    ∧ ends (asEvent (changeClaim c n w st) (asEvent (dropClaim d) s)))

/-- AMP_REST, with room in the leg queues: every zone that is ON, NIGHT or CLOSED, without owner or test, and idle for the
amp idle time goes to STANDBY, and its rack is sent AMP REST. AMP_WAKE_LIMIT: every WAKING zone whose wake stamp has
reached the limit goes ON and is counted. AMP_READY ends the wake of a WAKING zone, and is counted as stray elsewhere.
Every other zone and the rest of the state stand. (When the events of a frame are taken: assumption 2.) -/
def Obligations.AmplifierPower : Prop :=
  ∀ s : State,
    (s.IsDue .ampRest → (∀ l : Fin 4, s.ports[legPort l].queue.length ≤ 12) → Answers (exec .ampRest s) fun t =>
      (∀ z : Fin 16,
        let rests : Prop := s.zones[z].power = .on ∧ (s.zones[z].mode = .night ∨ s.zones[z].mode = .closed)
          ∧ s.zones[z].owner = none ∧ s.zones[z].test = .none
          ∧ s.za.ampIdle * 1000 ≤ (s.elapsed - s.zones[z].idleStamp).toNat
        (rests → t.zones[z] = { s.zones[z] with power := .standby }
          ∧ (s.ports[legPort (legOfZone z)].up = true → ∃ x ∈ t.ports[legPort (legOfZone z)].queue, x.urgent = true
              ∧ x.cell.kind = 0x31 ∧ x.cell.dst = ampAddr (legOfZone z) ∧ (x.cell.octet 4).toNat = z.val % 4))
        ∧ (¬rests → t.zones[z] = s.zones[z]))
      ∧ (∀ p : Fin 5, t.ports[p].link = s.ports[p].link)
      ∧ { t with zones := s.zones, ports := s.ports, due := s.due } = s)
    ∧ (s.IsDue .ampWakeLimit → Answers (exec .ampWakeLimit s) fun t =>
      (∀ z : Fin 16, (∀ st, s.zones[z].power = .waking → s.zones[z].wakeStamp = some st →
          s.za.ampWake ≤ (s.elapsed - st).toNat →
          t.zones[z] = { s.zones[z] with power := .on, wakeStamp := none
                                         unconfirmed := min (s.zones[z].unconfirmed + 1) 65535 })
        ∧ ((s.zones[z].power ≠ .waking ∨ s.zones[z].wakeStamp = none
            ∨ ∃ st, s.zones[z].wakeStamp = some st ∧ (s.elapsed - st).toNat < s.za.ampWake) → t.zones[z] = s.zones[z]))
      ∧ { t.silent with zones := s.zones } = { s.silent with zones := s.zones })
    ∧ (∀ (leg : Fin 4) (slot : Octet), s.Settled →
      (∀ k : Fin 4, slot.toNat = k.val → s.zones[zoneOf leg k].power = .waking →
        exec (.ampReady leg slot) s = .next ((s.take (.ampReady leg slot)).modZone (zoneOf leg k) fun z =>
          { z with power := .on, wakeStamp := none }))
      ∧ ((3 < slot.toNat ∨ ∃ k : Fin 4, slot.toNat = k.val ∧ s.zones[zoneOf leg k].power ≠ .waking) →
        exec (.ampReady leg slot) s = .next ((s.take (.ampReady leg slot)).modZa fun z =>
          { z with strayReady := min (z.strayReady + 1) 65535 })))

/-! ## Line supervision -/

/-- LINE_TEST_START: the leg's slot takes the lowest zone that is PENDING, ON and without owner; with room in the queue
the LINE TEST waits there with the next test number, and slot and zone are TESTING; with a full queue the retry stamp is
taken. SUPERVISE makes each zone of the set with test state NONE PENDING, wakes it from STANDBY, and answers with the
zones under test. (When the events of a frame are taken: assumption 2.) (Data octets: assumptions 9 to 11.) -/
def Obligations.LineTestsStart : Prop :=
  (∀ (leg k : Fin 4) (s : State), s.IsDue (.lineTestStart leg) → s.meas[leg].zone = none →
    s.ports[legPort leg].up = true →
    (s.meas[leg].retry = none ∨ ∃ r, s.meas[leg].retry = some r ∧ s.testTimeout ≤ (s.elapsed - r).toNat) →
    let ready (j : Fin 4) : Prop := s.zones[zoneOf leg j].test = .pending ∧ s.zones[zoneOf leg j].power = .on
      ∧ s.zones[zoneOf leg j].owner = none
    ready k → (∀ j < k, ¬ready j) →
    (s.NoPending → s.decideOwner (zoneOf leg k) = none → s.ports[legPort leg].queue.length < 16 →
      Answers (exec (.lineTestStart leg) s) fun t =>
        t.meas[leg] = { s.meas[leg] with
          number := s.meas[leg].number + 1, zone := some k, departure := none, retry := none
          started := min (s.meas[leg].started + 1) 65535 }
        ∧ (∃ x, t.ports[legPort leg].queue = s.ports[legPort leg].queue ++ [x] ∧ x.urgent = false ∧ x.cell.kind = 0x33
            ∧ x.cell.dst = ampAddr leg ∧ (x.cell.octet 4).toNat = k.val ∧ x.cell.octet 5 = s.meas[leg].number + 1)
        ∧ t.zones = s.zones.set (zoneOf leg k) { s.zones[zoneOf leg k] with test := .testing }
        ∧ t.claims = s.claims ∧ t.pages = s.pages ∧ t.gens = s.gens ∧ t.polls = s.polls ∧ t.still = s.still)
    ∧ (16 ≤ s.ports[legPort leg].queue.length → Answers (exec (.lineTestStart leg) s) fun t =>
        t.meas[leg] = { s.meas[leg] with
          number := s.meas[leg].number + 1, retry := some s.elapsed, refused := min (s.meas[leg].refused + 1) 65535 }
        ∧ t.zones = s.zones ∧ t.polls = s.polls ∧ t.still = s.still))
  ∧ (∀ (tag : Octet) (zones : ZoneSet) (s : State), s.Settled → s.NoPending →
    (∀ l : Fin 4, s.ports[legPort l].queue.length ≤ 12) →
    ∃ u, Responds (.supervise tag zones) s tag 0x16 .done
          (u16 (Sys2Proof.Machine.setOf fun z : Fin 16 => decide (u.zones[z].test ≠ .none)).toNat) u
      ∧ (∀ z : Fin 16, u.zones[z].test =
          if zones.getLsbD z.val = true ∧ s.zones[z].test = .none then .pending else s.zones[z].test)
      ∧ (∀ z : Fin 16, zones.getLsbD z.val = true → s.zones[z].test = .none → s.zones[z].power = .standby →
          u.zones[z].power = .waking ∧ u.zones[z].wakeStamp = some s.elapsed)
      ∧ (∀ z : Fin 16, (zones.getLsbD z.val = false ∨ s.zones[z].test ≠ .none) → u.zones[z] = s.zones[z])
      ∧ u.meas = s.meas ∧ u.claims = s.claims ∧ u.pages = s.pages ∧ u.still = (s.begun (.supervise tag zones)).still)

/-- A test in progress ends: a LINE_RESULT with its slot, its test number and a known class, after departure, gives the
zone its health and impedance code; a TEST_TIMEOUT gives NO-REPLY. The slot is IDLE, the zone's test state NONE, and a
change of health sets the latch. Any other LINE_RESULT is counted as stray. (When the events of a frame are taken:
assumption 2.) -/
def Obligations.LineTestsEnd : Prop :=
  ∀ (leg k : Fin 4) (slot number cls impedance : Octet) (d : Word32) (h : Health) (s : State),
    let z := zoneOf leg k
    let ended (h : Health) (i : Option Octet) (t : State) : Prop :=
      t.zones = s.zones.set z { s.zones[z] with
        test := .none, health := h, impedance := i, idleStamp := s.elapsed
        healthLatch := s.zones[z].healthLatch || decide (s.zones[z].health ≠ h) }
      ∧ { t.silent with zones := s.zones, meas := s.meas } = { s.silent with zones := s.zones, meas := s.meas }
    let stray : Prop := exec (.lineResult leg slot number cls impedance) s =
      .next ((s.take (.lineResult leg slot number cls impedance)).modMeas leg fun m =>
        { m with stray := min (m.stray + 1) 65535 })
    (s.NoPending → s.meas[leg].zone = some k → s.meas[leg].departure = some d → s.zones[z].test = .testing →
      s.zones[z].owner = none → s.decideOwner z = none →
      (s.Settled → slot.toNat = k.val → s.meas[leg].number = number →
        [Health.short, .low, .normal, .high, .openLine, .fault][cls.toNat]? = some h →
        Answers (exec (.lineResult leg slot number cls impedance) s) fun t => ended h (some impedance) t
          ∧ t.meas = s.meas.set leg { s.meas[leg] with
              zone := none, departure := none, completed := min (s.meas[leg].completed + 1) 65535 })
      ∧ (s.IsDue (.testTimeout leg) → s.testTimeout ≤ (s.elapsed - d).toNat →
        Answers (exec (.testTimeout leg) s) fun t => ended .noReply none t
          ∧ t.meas = s.meas.set leg { s.meas[leg] with
              zone := none, departure := none, timedOut := min (s.meas[leg].timedOut + 1) 65535 }))
    ∧ (s.Settled → (s.meas[leg].zone = none ∨ s.meas[leg].departure = none ∨ s.meas[leg].number ≠ number ∨ 5 < cls.toNat) →
        stray)
    ∧ (s.Settled → s.meas[leg].zone = some k → slot.toNat ≠ k.val → stray)

/-! ## Room units -/

/-- POLL_POINT, the poll interval having elapsed and no broadcast owed: the poll stamp is renewed, and, with the leg UP
without a poll, the clock set and polling not suspended, the first expected room after the last polled one, upward and
wrapping, is polled. In the states that suspend polling, while UNSET, while DOWN, or with a poll on the leg, only the
stamp changes. (When the events of a frame are taken: assumption 2.) -/
def Obligations.PollPointPolls : Prop :=
  ∀ (leg : Fin 4) (s : State), s.IsDue (.pollPoint leg) →
    s.roster.pollInterval ≤ (s.elapsed - s.polls[leg].stamp).toNat → s.polls[leg].owed = false →
    let start := match s.polls[leg].lastPolled with | some r => r.val + 1 | none => 0
    let room (j : Nat) : Fin 32 := Fin.ofNat 32 (start + j)
    let expects (j : Nat) : Prop := s.rooms[roomIndex leg (room j)].state ≠ .absent
    let suspended : Prop := s.drill.state = .prealert ∨ s.drill.state = .evacuate ∨ s.drill.state = .alarm
    (∀ j < 32, s.ports[legPort leg].up = true → s.polls[leg].poll = none → s.clock.state ≠ .unset → ¬suspended →
      s.ports[legPort leg].queue.length < 16 → expects j → (∀ i < j, ¬expects i) →
      Answers (exec (.pollPoint leg) s) fun t =>
        t.polls = s.polls.set leg
          { s.polls[leg] with stamp := s.elapsed, poll := some { room := room j, departed := none, voided := false } }
        ∧ (∃ x, t.ports[legPort leg].queue = s.ports[legPort leg].queue ++ [x] ∧ x.urgent = false ∧ x.cell.kind = 0x28
            ∧ x.cell.dst = roomAddr leg (room j))
        ∧ (∀ p : Fin 5, t.ports[p].link = s.ports[p].link ∧ (p ≠ legPort leg → t.ports[p] = s.ports[p]))
        ∧ { t with polls := s.polls, ports := s.ports, due := s.due } = s)
    ∧ ((s.ports[legPort leg].up = false ∨ s.polls[leg].poll ≠ none ∨ s.clock.state = .unset ∨ suspended
        ∨ ∀ j < 32, ¬expects j) →
      exec (.pollPoint leg) s =
        .next ((s.take (.pollPoint leg)).modPoll leg fun l => { l with stamp := s.elapsed }))

/-- CLOCK_REPLY of the room that is outstanding: the error is the difference of Troom from the departure time plus half
the round trip, taken into half a day either way and saturated; the poll ends, and the room is TRACKING within the
tolerance, or DRIFTING and sent a CLOCK SET. A reply of another room, without an outstanding poll or with a Troom out of
range is late; one of a voided poll counts as voided. (When the events of a frame are taken: assumption 2.) -/
def Obligations.ClockReplyTaken : Prop :=
  ∀ (leg : Fin 4) (room : Fin 32) (troom : Word32) (d : Departure) (s : State), s.Settled →
    let c : Instr := .clockReply leg room troom
    let i := roomIndex leg room
    let reference : Int := (d.time : Int) + ((s.elapsed - d.stamp).toNat / 2 : Nat)
    let r : Int := ((troom.toNat : Int) - reference) % 86400000
    let e : Int := max (-32767) (min 32767 (if 43200000 ≤ r then r - 86400000 else r))
    let late : Prop := exec c s = .next ((s.take c).modPoll leg fun l => { l with late := min (l.late + 1) 65535 })
    (s.polls[leg].poll = some ⟨room, some d, false⟩ → troom.toNat < 86400000 →
      (e.natAbs ≤ s.roster.tolerance → Answers (exec c s) fun t =>
        t.rooms = s.rooms.set i { s.rooms[i] with
          state := .tracking, lastError := some e, missed := 0, lastReply := some s.elapsed }
        ∧ t.polls = s.polls.set leg { s.polls[leg] with poll := none, taken := min (s.polls[leg].taken + 1) 65535 }
        ∧ { t.silent with rooms := s.rooms, polls := s.polls } = { s.silent with rooms := s.rooms, polls := s.polls })
      ∧ (s.roster.tolerance < e.natAbs → s.ports[legPort leg].up = true → s.ports[legPort leg].queue.length < 16 →
        Answers (exec c s) fun t =>
          t.rooms = s.rooms.set i { s.rooms[i] with
            state := .drifting, lastError := some e, missed := 0, lastReply := some s.elapsed
            corrections := min (s.rooms[i].corrections + 1) 65535 }
          ∧ t.polls = s.polls.set leg { s.polls[leg] with
              poll := none, taken := min (s.polls[leg].taken + 1) 65535
              setsQueued := min (s.polls[leg].setsQueued + 1) 65535 }
          ∧ (∃ x ∈ t.ports[legPort leg].queue, x.cell.kind = kindClockSet ∧ x.cell.dst = roomAddr leg room)
          ∧ { t.silent with rooms := s.rooms, polls := s.polls, ports := s.ports }
              = { s.silent with rooms := s.rooms, polls := s.polls, ports := s.ports }
          ∧ (∀ p : Fin 5, t.ports[p].link = s.ports[p].link)))
    ∧ (s.polls[leg].poll = some ⟨room, some d, false⟩ → 86400000 ≤ troom.toNat → late)
    ∧ (s.polls[leg].poll = some ⟨room, some d, true⟩ →
      exec c s = .next ((s.take c).modPoll leg fun l => { l with voided := min (l.voided + 1) 65535 }))
    ∧ ((∀ dep v, s.polls[leg].poll ≠ some ⟨room, some dep, v⟩) → late)

/-- REPLY_TIMEOUT: each outstanding poll whose reply timeout has expired ends; unless it is voided, it is a miss of its
room, which is STALE at the third. Every other poll and room stands. CLOCK_STATE_BROADCAST: the clock state is noted.
Where it differs from the noted one and is not UNSET, every UP leg with room in its queue has a leg-broadcast CLOCK SET
waiting and none owed, and a DOWN leg is untouched; otherwise nothing else changes. (When the events of a frame are taken:
assumption 2.) -/
def Obligations.RosterTicksAct : Prop :=
  (∀ s : State, s.IsDue .replyTimeout → Answers (exec .replyTimeout s) fun t =>
    (∀ (leg : Fin 4) (room : Fin 32) (d : Departure) (v : Bool), s.polls[leg].poll = some ⟨room, some d, v⟩ →
      s.roster.replyTimeout ≤ (s.elapsed - d.stamp).toNat →
      (v = true → t.polls[leg] = { s.polls[leg] with poll := none }
        ∧ ∀ r : Fin 32, t.rooms[roomIndex leg r] = s.rooms[roomIndex leg r])
      ∧ (v = false → t.polls[leg] = { s.polls[leg] with poll := none, misses := min (s.polls[leg].misses + 1) 65535 }
        ∧ (let old := s.rooms[roomIndex leg room]
          t.rooms[roomIndex leg room] = { old with
            missed := min 3 (old.missed + 1), state := if 3 ≤ old.missed + 1 then .stale else old.state })
        ∧ ∀ r : Fin 32, r ≠ room → t.rooms[roomIndex leg r] = s.rooms[roomIndex leg r]))
    ∧ (∀ leg : Fin 4, (∀ room d v, s.polls[leg].poll = some ⟨room, some d, v⟩ →
        (s.elapsed - d.stamp).toNat < s.roster.replyTimeout) →
      t.polls[leg] = s.polls[leg] ∧ ∀ r : Fin 32, t.rooms[roomIndex leg r] = s.rooms[roomIndex leg r])
    ∧ { t.silent with polls := s.polls, rooms := s.rooms } = { s.silent with polls := s.polls, rooms := s.rooms })
  ∧ ∀ s : State, s.IsDue .clockStateBroadcast →
    ((s.clock.state = s.roster.noted ∨ s.clock.state = .unset) →
      exec .clockStateBroadcast s =
        .next ((s.take .clockStateBroadcast).modRoster fun r => { r with noted := s.clock.state }))
    ∧ (s.clock.state ≠ s.roster.noted → s.clock.state ≠ .unset →
      (∀ l : Fin 4, s.ports[legPort l].queue.length < 16) → Answers (exec .clockStateBroadcast s) fun t =>
        (∀ l : Fin 4, (s.ports[legPort l].up = true →
            t.polls[l] = { s.polls[l] with owed := false, setsQueued := min (s.polls[l].setsQueued + 1) 65535 }
            ∧ ∃ x ∈ t.ports[legPort l].queue, x.cell.kind = kindClockSet ∧ x.cell.dst = broadcastAddr l)
          ∧ (s.ports[legPort l].up = false → t.polls[l] = s.polls[l] ∧ t.ports[legPort l] = s.ports[legPort l]))
        ∧ (∀ p : Fin 5, t.ports[p].link = s.ports[p].link)
        ∧ { t with polls := s.polls, ports := s.ports, due := s.due }
            = { s with roster := { s.roster with noted := s.clock.state } })

/-- ROSTER_WRITE sets, adds or removes expected rooms of a leg: a room that becomes expected is UNPOLLED with a fresh
record, one that is no longer expected is ABSENT and its poll voided, every other room of every leg stands. A leg above 3
and an unknown operation are refused FIELD. The answer carries the expected set and its size. (When the events of a frame
are taken: assumption 2.) (Data octets: assumptions 9 to 11.) -/
def Obligations.RosterWritten : Prop :=
  ∀ (tag leg op : Octet) (rooms : RoomSet) (s : State),
    RespondsOnly (.rosterWriteUnknownOperation tag leg op rooms) s tag 0x18 .field []
    ∧ (∀ (c : Instr) (f : Bool → Bool → Bool),
      ((c = .rosterWriteWrite tag leg rooms ∧ ∀ o n, f o n = n)
        ∨ (c = .rosterWriteSet tag leg rooms ∧ ∀ o n, f o n = (o || n))
        ∨ (c = .rosterWriteClear tag leg rooms ∧ ∀ o n, f o n = (o && !n))) →
      (3 < leg.toNat → RespondsOnly c s tag 0x18 .field [])
      ∧ (∀ l : Fin 4, leg.toNat = l.val → ∃ u,
        Responds c s tag 0x18 .done (u32 (u.expectedSet l).toNat ++ u16 (card (u.expectedSet l))) u
        ∧ (∀ r : Fin 32,
          let old := decide (s.rooms[roomIndex l r].state ≠ .absent)
          let new := f old (rooms.getLsbD r.val)
          (u.expectedSet l).getLsbD r.val = new
          ∧ (old = false → new = true → u.rooms[roomIndex l r] =
              { state := .unpolled, lastError := none, missed := 0, corrections := 0, lastReply := none })
          ∧ (old = true → new = false → u.rooms[roomIndex l r] =
              { state := .absent, lastError := none, missed := 0, corrections := 0, lastReply := none })
          ∧ (old = new → u.rooms[roomIndex l r] = s.rooms[roomIndex l r])
          ∧ (∀ q, s.polls[l].poll = some q → q.room = r →
              u.polls[l] = { s.polls[l] with poll := some { q with voided := q.voided || (old && !new) } }))
        ∧ (s.polls[l].poll = none → u.polls = s.polls)
        ∧ (∀ m : Fin 4, m ≠ l → u.polls[m] = s.polls[m]
          ∧ ∀ r : Fin 32, u.rooms[roomIndex m r] = s.rooms[roomIndex m r])
        ∧ { u with rooms := s.rooms, polls := s.polls } = { s.begun c with rooms := s.rooms, polls := s.polls }))

/-! ## Drills, alarm, contacts -/

/-- INPUT_EDGE, the raw level having differed for the debounce time: the debounced level follows it, the latch is set
where the direction is enabled, and the action of the contact is taken whether it is enabled or not: PANEL ALARM rising
begins the alarm, falling ends it; DRILL KEY rising steps the drill on; SILENCE rising silences the alarm; BELL INHIBIT
acts on no drill state. An alarm that breaks into a drill finalises its record, if it still runs, with end reason
ALARM-ABORT, its all cleared by target and its faulted zones (R147); alarm from IDLE, alarm clear, silence and the
all-clear leave the record as it was. The parameters of the Drill Sequencer and its counters of clears stand, a drill
started and an alarm's onset are counted. Campus time, schedule, rooms, parameters and the other inputs stand. (When the
events of a frame are taken: assumption 2.) -/
def Obligations.InputEdgeActs : Prop :=
  ∀ (i : Fin 4) (s : State), s.IsDue (.inputEdge i) → s.inputs[i].level ≠ s.inputs[i].raw →
    s.drill.debounce ≤ (s.elapsed - s.inputs[i].changeStamp).toNat →
    let rising := s.inputs[i].raw
    let next : Option DrillState := match i.val, rising, s.drill.state with
      | 0, true, .alarm => none
      | 0, true, .alarmSilenced => none
      | 0, true, _ => some .alarm
      | 0, false, .alarm => some .idle
      | 0, false, .alarmSilenced => some .idle
      | 1, true, .idle => some (if s.drill.keyPrealert = 0 then .evacuate else .prealert)
      | 1, true, .prealert => some .evacuate
      | 1, true, .evacuate => some .hold
      | 1, true, .hold => some .allclear
      | 2, true, .alarm => some .alarmSilenced
      | _, _, _ => none
    Answers (exec (.inputEdge i) s) fun t =>
      t.inputs = s.inputs.set i { s.inputs[i] with
        level := rising, latch := s.inputs[i].latch || (if rising then s.inputs[i].rise else s.inputs[i].fall) }
      ∧ (next = none → { t.silent with inputs := s.inputs } = { s.silent with inputs := s.inputs })
      ∧ (∀ n, next = some n → t.drill.state = n ∧ t.drill.entryStamp = s.elapsed)
      ∧ (next = some .alarm → s.drill.state ≠ .idle → t.drill.record = s.finalised .alarmAbort)
      ∧ ((next = some .alarm ∧ s.drill.state = .idle) ∨ next = some .idle ∨ next = some .alarmSilenced
          ∨ next = some .allclear → t.drill.record = s.drill.record)
      ∧ t.drill = { s.drill with
          state := t.drill.state, entryStamp := t.drill.entryStamp, cause := t.drill.cause, record := t.drill.record
          muster := t.drill.muster, elapsed := t.drill.elapsed, owed := t.drill.owed
          drillsStarted := if i = 1 ∧ rising = true ∧ s.drill.state = .idle then min (s.drill.drillsStarted + 1) 65535
            else s.drill.drillsStarted
          alarmOnsets := if next = some .alarm then min (s.drill.alarmOnsets + 1) 65535 else s.drill.alarmOnsets }
      ∧ { t.still with inputs := s.inputs, drill := s.drill } = { s.still with inputs := s.inputs, drill := s.drill }

/-- PREALERT_EXPIRY enters EVACUATE when the pre-alert time of the record has passed: the drill elapsed time starts at 0,
the muster list holds every expected room in ascending order, EG plays the evacuation pattern HELD with a claim of
priority 14 on every zone. EVACUATION_TONE_LIMIT enters HOLD at the limit: EG is IDLE, its claim withdrawn, and the record
keeps the hold-reached time and the cause. DRILL_STATE_OWED_OFFER: an UP leg with its owed flag set and room in its queue
gets an urgent DRILL STATE with the present state and target, and owes none; a leg that is DOWN or owed none is left as it
is. (When the events of a frame are taken: assumption 2.) -/
def Obligations.DrillTimersAct : Prop :=
  (∀ (s : State) (r : DrillRecord),
    (s.IsDue .prealertExpiry → s.drill.state = .prealert → s.drill.record = some r →
      r.prealert * 1000 ≤ (s.elapsed - s.drill.entryStamp).toNat → Answers (exec .prealertExpiry s) fun t =>
        t.drill.state = .evacuate ∧ t.drill.cause = some .prealertTime ∧ t.drill.entryStamp = s.elapsed
        ∧ t.drill.elapsed = some 0
        ∧ t.drill.muster =
            (((List.finRange 128).filter fun n => decide (s.rooms[n].state ≠ .absent)).map fun n => ⟨n.val, none⟩)
        ∧ t.drill.record = some { r with
            evacStart := some s.elapsed, musterCount := t.drill.muster.length, clearedCount := 0, lastClear := none }
        ∧ t.gens[egGen].running = true ∧ t.gens[egGen].held = true ∧ t.gens[egGen].use = .drill
        ∧ t.gens[egGen].pattern = s.drill.evacPattern ∧ t.gens[egGen].zones = 0xFFFF
        ∧ (∃ k, t.claims[egClaimant] = some k ∧ k.priority = 14 ∧ k.wanted = 0xFFFF ∧ k.stamp = s.elapsed)
        ∧ { t.still with drill := s.drill } = { s.still with drill := s.drill })
    ∧ (s.IsDue .evacuationToneLimit → s.drill.state = .evacuate → s.drill.record = some r →
      ∀ n, s.drill.elapsed = some n → s.drill.toneLimit * 1000 ≤ n → Answers (exec .evacuationToneLimit s) fun t =>
        t.drill.state = .hold ∧ t.drill.cause = some .toneLimit ∧ t.drill.entryStamp = s.elapsed
        ∧ t.drill.elapsed = some n ∧ t.drill.muster = s.drill.muster
        ∧ t.drill.record = some { r with holdReached := some n, holdCause := some .toneLimit }
        ∧ t.gens[egGen].running = false ∧ t.claims[egClaimant] = none
        ∧ { t.still with drill := s.drill } = { s.still with drill := s.drill }))
  ∧ ∀ (leg : Fin 4) (s : State), s.IsDue (.drillStateOwedOffer leg) →
    (s.ports[legPort leg].up = true → s.drill.owed.getLsbD leg.val = true → s.ports[legPort leg].queue.length < 16 →
      Answers (exec (.drillStateOwedOffer leg) s) fun t =>
        (∃ x, t.ports[legPort leg].queue = s.ports[legPort leg].queue ++ [x] ∧ x.urgent = true ∧ x.cell.kind = 0x2C
          ∧ x.cell.dst = broadcastAddr leg ∧ (x.cell.octet 4).toNat = s.drill.state.code
          ∧ x.cell.octets2 5 = BitVec.ofNat 16 ((s.drill.record.map (·.target)).getD 0))
        ∧ (∀ l : Fin 4, t.drill.owed.getLsbD l.val = (s.drill.owed.getLsbD l.val && decide (l ≠ leg)))
        ∧ (∀ p : Fin 5, p ≠ legPort leg → t.ports[p] = s.ports[p])
        ∧ { t with ports := s.ports, due := s.due, drill := { t.drill with owed := s.drill.owed } } = s)
    ∧ ((s.ports[legPort leg].up = false ∨ s.drill.owed.getLsbD leg.val = false) →
      exec (.drillStateOwedOffer leg) s = .next (s.take (.drillStateOwedOffer leg)))

/-- DRILL_START in IDLE starts a drill with the clamped parameters, in PREALERT, or in EVACUATE with a pre-alert of 0;
DRILL_HOLD in EVACUATE enters HOLD; DRILL_END in PREALERT, EVACUATE and HOLD enters ALLCLEAR; ALARM_SILENCE in ALARM
silences it. The same command again answers DONE where it has taken effect; in the other states it is refused ALARM, BUSY
or STATE and changes nothing. (When the events of a frame are taken: assumption 2.) (Data octets: assumptions 9 to 11.) -/
def Obligations.DrillCommandsAct : Prop :=
  ∀ (tag prealert : Octet) (target : Word16) (staff : ZoneSet) (autoHold : Bool) (s : State),
    let start : Instr := .drillStart tag prealert target staff autoHold
    let st := s.drill.state
    let p := min 120 prealert.toNat
    let g := max 1 (min 1800 target.toNat)
    let alarmed : Prop := st = .alarm ∨ st = .alarmSilenced
    let changes (c : Instr) (n : DrillState) (cause : Cause) (kind : Octet) (res : Result) : Prop :=
      ∃ u data, Responds c s tag kind res data u ∧ u.drill.state = n ∧ u.drill.cause = some cause
        ∧ u.drill.entryStamp = s.settle.elapsed
        ∧ { u.still with drill := s.drill } = { (s.begun c).still with drill := s.drill }
    (alarmed → RespondsOnly start s tag 0x1A .alarm [])
    ∧ ((st = .prealert ∨ st = .evacuate ∨ st = .hold ∨ st = .allclear) → RespondsOnly start s tag 0x1A .busy [])
    ∧ (st = .idle →
      changes start (if p = 0 then .evacuate else .prealert) .start 0x1A
        (if p ≠ prealert.toNat ∨ g ≠ target.toNat then .clamped else .done)
      ∧ (0 < p → Answers (exec start s) fun t => t.drill.muster = [] ∧ t.drill.elapsed = none
        ∧ t.drill.drillsStarted = min (s.drill.drillsStarted + 1) 65535
        ∧ t.drill.record = some
            { byKey := false, tag := some tag
              startTime := if s.clock.state = .unset then none else some (s.clock.day, s.clock.timeOfDay)
              prealert := p, target := g, staff, autoHold, evacStart := none, holdReached := none, holdCause := none
              endReason := none, musterCount := 0, clearedCount := 0, lastClear := none, allCleared := none
              bellsWithheld := 0, faulted := none }))
    ∧ (st = .evacuate → changes (.drillHold tag) .hold .holdCommand 0x1B .done)
    ∧ (st = .hold → RespondsOnly (.drillHold tag) s tag 0x1B .done s.settle.drill.counts)
    ∧ (alarmed → RespondsOnly (.drillHold tag) s tag 0x1B .alarm [])
    ∧ ((st = .idle ∨ st = .prealert ∨ st = .allclear) → RespondsOnly (.drillHold tag) s tag 0x1B .state [])
    ∧ ((st = .prealert ∨ st = .evacuate ∨ st = .hold) → changes (.drillEnd tag) .allclear .endCommand 0x1C .done)
    ∧ (st = .allclear → RespondsOnly (.drillEnd tag) s tag 0x1C .done s.settle.drill.counts)
    ∧ (alarmed → RespondsOnly (.drillEnd tag) s tag 0x1C .alarm [])
    ∧ (st = .idle → RespondsOnly (.drillEnd tag) s tag 0x1C .state [])
    ∧ (st = .alarm → changes (.alarmSilence tag) .alarmSilenced .silenceCommand 0x1D .done)
    ∧ (st ≠ .alarm → RespondsOnly (.alarmSilence tag) s tag 0x1D .state [])

/-- ROOM_CLEAR in EVACUATE or HOLD: the first report of a mustered room takes the drill elapsed time and raises the
cleared count, and in EVACUATE the last one of a drill with auto-hold enters HOLD; a repeat is counted as repeated. A room
that is not mustered, and any report in another state, is counted as stray. (When the events of a frame are taken:
assumption 2.) -/
def Obligations.RoomClears : Prop :=
  ∀ (leg : Fin 4) (room : Fin 32) (s : State), s.Settled →
    let c : Instr := .roomClear leg room
    let n := 32 * leg.val + room.val
    let active : Prop := s.drill.state = .evacuate ∨ s.drill.state = .hold
    ((¬active ∨ ∀ e ∈ s.drill.muster, e.room ≠ n) →
      exec c s = .next ((s.take c).modDrill fun d => { d with clearsStray := min (d.clearsStray + 1) 65535 }))
    ∧ (∀ l e r, active → s.drill.muster = l ++ e :: r → (∀ x ∈ l, x.room ≠ n) → e.room = n →
      (e.cleared.isSome = true →
        exec c s = .next ((s.take c).modDrill fun d => { d with clearsRepeated := min (d.clearsRepeated + 1) 65535 }))
      ∧ (∀ q now, e.cleared = none → s.drill.elapsed = some now → s.drill.record = some q → Answers (exec c s) fun t =>
        t.drill.muster = l ++ { e with cleared := some now } :: r
        ∧ (∃ q', t.drill.record = some q' ∧ q'.clearedCount = q.clearedCount + 1 ∧ q'.lastClear = some now
            ∧ q'.musterCount = q.musterCount)
        ∧ (let holds : Prop := s.drill.state = .evacuate ∧ 1 ≤ q.musterCount ∧ q.musterCount ≤ q.clearedCount + 1
              ∧ q.autoHold = true
          (holds → t.drill.state = .hold ∧ t.drill.cause = some .autoHold)
          ∧ (¬holds → t.drill.state = s.drill.state
            ∧ { t with drill := s.drill, due := s.due } = s))
        ∧ { t.still with drill := s.drill } = { s.still with drill := s.drill }))

/-! ## Dispatch -/

/-- DISPATCH_TRUNK_CELL: a wrong source, an invalid or impossible destination, or a kind on the wrong side of 0x40 counts
as misaddressed; an unknown fixed kind to the switch is answered UNKNOWN and counted; a command to the switch is executed;
a pass-through cell is dropped by its entry, withheld during a drill, or queued for the leg of its address with its
entry's class. (When the events of a frame are taken: assumption 2.) -/
def Obligations.TrunkCellDispatched : Prop :=
  ∀ (x : Cell) (cap : Capture) (s : State),
    let c : Instr := .dispatchTrunkCell x cap
    let u := s.settle.take c
    let e := s.table[tableIndex x.kind]
    let passThrough : Prop := 0x40 ≤ x.kind.toNat
    let withholding : Prop := s.drill.state = .prealert ∨ s.drill.state = .evacuate ∨ s.drill.state = .alarm
    ((x.src ≠ 0x01 ∨ validAddr x.dst = false ∨ x.dst = 0x01 ∨ (x.dst ≠ 0x00 ∧ ¬passThrough) ∨ (x.dst = 0x00 ∧ passThrough)) →
      exec c s = .next (u.modDisp fun d => { d with misaddressed := min (d.misaddressed + 1) 65535 }))
    ∧ (x.src = 0x01 → x.dst = 0x00 → ¬passThrough →
      (decodeCommand x cap = none → exec c s = .next (respond x.tag x.kind .unknown []
        (u.modDisp fun d => { d with unknown := min (d.unknown + 1) 65535 })))
      ∧ ∀ i, decodeCommand x cap = some i → exec c s = exec i u)
    ∧ (∀ leg : Fin 4, x.src = 0x01 → legOfAddr x.dst = some leg → passThrough →
      (e.down = false → exec c s = .next (u.modDisp fun d => { d with tableDropped := min (d.tableDropped + 1) 65535 }))
      ∧ (e.down = true → e.withhold = true → withholding →
        exec c s = .next (u.modDisp fun d => { d with withheld := min (d.withheld + 1) 65535 }))
      ∧ (e.down = true → (e.withhold = false ∨ ¬withholding) → s.ports[legPort leg].up = true →
        s.ports[legPort leg].queue.length < 16 → exec c s = .next (u.modPort (legPort leg) fun p =>
          { p with queue := p.queue ++ [{ cell := x, urgent := e.urgent, maker := .dispatcher }]
                   accepted := min (p.accepted + 1) 65535 })))

/-- DISPATCH_LEG_CELL: a source that does not lie on the leg, an invalid destination, or a command kind counts as
misaddressed; one of the four protocol kinds goes to its block from the right kind of source to the switch, and counts as
misaddressed with another destination or source; an unknown fixed kind is counted without an answer; a pass-through cell
goes to the head-end or, as a hairpin, to the rooms of another leg, where its entry forwards it and does not withhold it,
and is otherwise dropped, withheld or misaddressed. (When the events of a frame are taken: assumption 2.) -/
def Obligations.LegCellDispatched : Prop :=
  ∀ (leg : Fin 4) (x : Cell) (s : State),
    let c : Instr := .dispatchLegCell leg x
    let u := s.settle.take c
    let e := s.table[tableIndex x.kind]
    let onLeg : Prop := x.src = ampAddr leg ∨ ∃ r : Fin 32, x.src = roomAddr leg r
    let withholding : Prop := s.drill.state = .prealert ∨ s.drill.state = .evacuate ∨ s.drill.state = .alarm
    let misaddressed : Prop :=
      exec c s = .next (u.modDisp fun d => { d with misaddressed := min (d.misaddressed + 1) 65535 })
    let dropped : Prop :=
      exec c s = .next (u.modDisp fun d => { d with tableDropped := min (d.tableDropped + 1) 65535 })
    let withheld : Prop := exec c s = .next (u.modDisp fun d => { d with withheld := min (d.withheld + 1) 65535 })
    let queued (p : Fin 5) : Prop := exec c s = .next (u.modPort p fun y =>
      { y with queue := y.queue ++ [{ cell := x, urgent := e.urgent, maker := .dispatcher }]
               accepted := min (y.accepted + 1) 65535 })
    ((¬onLeg ∨ validAddr x.dst = false) → misaddressed)
    ∧ (onLeg → validAddr x.dst = true →
      ((0x01 ≤ x.kind.toNat → x.kind.toNat ≤ 0x1E → misaddressed)
      ∧ (x.kind.toNat ∈ [0x2A, 0x2B, 0x32, 0x34] →
        ((x.dst ≠ 0x00 ∨ (x.kind.toNat ∈ [0x2A, 0x2B] ∧ x.src = ampAddr leg)
          ∨ (x.kind.toNat ∈ [0x32, 0x34] ∧ ∃ r : Fin 32, x.src = roomAddr leg r)) → misaddressed)
        ∧ (x.dst = 0x00 →
          (∀ r : Fin 32, x.src = roomAddr leg r →
            (x.kind.toNat = 0x2A → exec c s = exec (.clockReply leg r (x.octets4 4)) u)
            ∧ (x.kind.toNat = 0x2B → exec c s = exec (.roomClear leg r) u))
          ∧ (x.src = ampAddr leg →
            (x.kind.toNat = 0x32 → exec c s = exec (.ampReady leg (x.octet 4)) u)
            ∧ (x.kind.toNat = 0x34 →
                exec c s = exec (.lineResult leg (x.octet 4) (x.octet 5) (x.octet 6) (x.octet 7)) u))))
      ∧ ((x.kind.toNat = 0 ∨ (0x1F ≤ x.kind.toNat ∧ x.kind.toNat < 0x40)) →
        (∀ k ∈ [0x2A, 0x2B, 0x32, 0x34], x.kind.toNat ≠ k) →
        exec c s = .next (u.modDisp fun d => { d with unknown := min (d.unknown + 1) 65535 }))
      ∧ (0x40 ≤ x.kind.toNat →
        (e.up = false → dropped)
        ∧ (e.up = true →
          (x.dst = 0x01 →
            (e.withhold = true → withholding → withheld)
            ∧ ((e.withhold = false ∨ ¬withholding) → s.ports[trunkPort].queue.length < 32 → queued trunkPort))
          ∧ (x.dst ≠ 0x01 → roomsLegOf x.dst = none → misaddressed)
          ∧ (∀ m : Fin 4, x.dst ≠ 0x01 → roomsLegOf x.dst = some m →
            (m = leg → misaddressed)
            ∧ (m ≠ leg →
              (e.down = false → dropped)
              ∧ (e.down = true →
                (e.withhold = true → withholding → withheld)
                ∧ ((e.withhold = false ∨ ¬withholding) → s.ports[legPort m].up = true →
                  s.ports[legPort m].queue.length < 16 → queued (legPort m)))))))))

/-- DISPATCH_WRITE is refused FIELD and changes nothing with a first kind below 0x40 or a last kind below the first;
otherwise every entry from the first kind to the last takes the four values, every other entry stands, and the answer,
urgent and behind the upstream cells that wait, is DONE with the number of entries. (When the events of a frame are taken:
assumption 2.) (Data octets: assumptions 9 to 11.) -/
def Obligations.DispatchTableWritten : Prop :=
  ∀ (tag first last : Octet) (down up urgent withhold : Bool) (s : State),
    let c : Instr := .dispatchWrite tag first last down up urgent withhold
    ((first.toNat < 0x40 ∨ last.toNat < first.toNat) → RespondsOnly c s tag 0x1E .field [])
    ∧ (0x40 ≤ first.toNat → first.toNat ≤ last.toNat → ∃ u,
      Responds c s tag 0x1E .done (u16 (last.toNat - first.toNat + 1)) u
      ∧ 1 ≤ last.toNat - first.toNat + 1 ∧ last.toNat - first.toNat + 1 ≤ 192
      ∧ (first = last → last.toNat - first.toNat + 1 = 1)
      ∧ (∀ kind : Octet, 0x40 ≤ kind.toNat →
        (first.toNat ≤ kind.toNat → kind.toNat ≤ last.toNat → u.table[tableIndex kind] = { down, up, urgent, withhold })
        ∧ ((kind.toNat < first.toNat ∨ last.toNat < kind.toNat) → u.table[tableIndex kind] = s.table[tableIndex kind]))
      ∧ { u with table := s.table } = s.begun c
      ∧ (u.ports[trunkPort].queue.length < 32 → ∀ t, exec c s = .next t → ∃ x,
          t.ports[trunkPort].queue = u.ports[trunkPort].queue ++ [x] ∧ x.urgent = true ∧ x.cell.tag = tag))

/-! ## Parameters -/

/-- CONFIGURE of a quantity without a row of its own: the value, clamped to its range, is in force; the answer is DONE, or
CLAMPED, with the parameter number and that value; every other parameter and the rest of the state stand. (When the events
of a frame are taken: assumption 2.) (Data octets: assumptions 9 to 11.) -/
def Obligations.QuantitiesConfigured : Prop :=
  ∀ (tag : Octet) (number : Word16) (value : Word32) (op : Octet) (lo hi : Int) (s : State), s.Settled →
    (number.toNat, lo, hi) ∈ [((3 : Nat), (10 : Int), (3600 : Int)), (4, -200, 200), (5, 0, 600), (6, 0, 30000),
      (7, 10, 3600), (8, 1, 60), (11, 1, 128), (12, 10, 600), (13, 100, 5000), (15, 100, 2000), (16, 100, 5000),
      (17, 50, 1000), (18, 20, 2000), (19, 60, 1800), (24, 0, 120), (25, 1, 1800), (28, 1, 100)] →
    let c : Instr := .configure tag number value op
    let v := max lo (min hi value.toInt)
    ∃ u, Responds c s tag 0x02 (if v = value.toInt then .done else .clamped) (u16 number.toNat ++ i32 v) u
      ∧ u.param number.toNat = v ∧ (∀ n ≤ 31, n ≠ number.toNat → u.param n = s.param n)
      ∧ { u with
          clock := { u.clock with holdoverLimit := 0, frameTrim := 0 }, sched := { u.sched with catchUpWindow := 0 }
          arb := { u.arb with lateLimit := 0 }
          za := { u.za with pageMax := 0, pageSilence := 0, ampIdle := 0, ampWake := 0 }
          duckRate := 0, testTimeout := 0, roster := { u.roster with pollInterval := 0, replyTimeout := 0, tolerance := 0 }
          drill := { u.drill with toneLimit := 0, keyPrealert := 0, keyTarget := 0, debounce := 0 } }
        = { s.begun c with
          clock := { s.clock with holdoverLimit := 0, frameTrim := 0 }, sched := { s.sched with catchUpWindow := 0 }
          arb := { s.arb with lateLimit := 0 }
          za := { s.za with pageMax := 0, pageSilence := 0, ampIdle := 0, ampWake := 0 }
          duckRate := 0, testTimeout := 0, roster := { s.roster with pollInterval := 0, replyTimeout := 0, tolerance := 0 }
          drill := { s.drill with toneLimit := 0, keyPrealert := 0, keyTarget := 0, debounce := 0 } }

/-- CONFIGURE of a pattern index, of key auto-hold, of the key staff zones and of the notice enables: an index above 15,
an enumeration above 1, an unknown operation and an unknown parameter are refused FIELD; WRITE, SET and CLEAR act on the
sets. (When the events of a frame are taken: assumption 2.) (Data octets: assumptions 9 to 11.) -/
def Obligations.IndicesAndSetsConfigured : Prop :=
  ∀ (tag : Octet) (number : Word16) (value : Word32) (op : Octet) (s : State),
    let c : Instr := .configure tag number value op
    let b := s.begun c
    let refused : Prop := RespondsOnly c s tag 0x02 .field []
    let applied (old new : Nat) : Option Nat := match op.toNat with
      | 0 => some new | 1 => some (old ||| new) | 2 => some (old - (old &&& new)) | _ => none
    ((number.toNat = 0 ∨ 31 < number.toNat) → refused)
    ∧ (number.toNat ∈ [20, 21, 22, 23, 27] → (if number.toNat = 27 then 1 else 15) < value.toNat → refused)
    ∧ (number.toNat ∈ [26, 31] → 2 < op.toNat → refused)
    ∧ (∀ d : Drill, ((number.toNat = 20 ∧ d = { b.drill with prealertPattern := value.toNat })
          ∨ (number.toNat = 21 ∧ d = { b.drill with evacPattern := value.toNat })
          ∨ (number.toNat = 22 ∧ d = { b.drill with allclearPattern := value.toNat })
          ∨ (number.toNat = 23 ∧ d = { b.drill with alarmPattern := value.toNat })) → value.toNat ≤ 15 →
        Responds c s tag 0x02 .done (u16 number.toNat ++ u32 value.toNat) { b with drill := d })
    ∧ (number.toNat = 27 → value.toNat ≤ 1 →
        Responds c s tag 0x02 .done (u16 27 ++ u32 value.toNat)
          { b with drill := { b.drill with keyAutoHold := decide (value.toNat = 1) } })
    ∧ (∀ n, number.toNat = 26 → applied s.drill.keyStaff.toNat (value.toNat % 65536) = some n →
        Responds c s tag 0x02 .done (u16 26 ++ u32 n) { b with drill := { b.drill with keyStaff := BitVec.ofNat 16 n } })
    ∧ (∀ n, number.toNat = 31 → applied s.mgmt.enables.toNat (value.toNat % 65536 &&& 0x7FFE) = some n →
        Responds c s tag 0x02 .done (u16 31 ++ u32 n) { b with mgmt := { b.mgmt with enables := BitVec.ofNat 16 n } })

/-- CONFIGURE rows with more than a value to store: the step threshold clamps C below it; the slew rate recomputes K and
returns the slew counter to 0; a detector threshold is held against the other one; the edge enables clear the latch of an
input left with none; the drill floor, no page PENDING and no event in progress (assumption 36), re-evaluates every zone
while the drill state is not IDLE. (When the events of a frame are taken: assumption 2.) (Data octets: assumptions 9 to
11.) -/
def Obligations.SpecialParametersConfigured : Prop :=
  ∀ (tag : Octet) (value : Word32) (s : State), s.Settled →
    let fit (lo hi : Int) : Int := max lo (min hi value.toInt)
    let res (v : Int) : Result := if v = value.toInt then .done else .clamped
    (let c : Instr := .configureStepThreshold tag value
      let v := fit 100 60000
      ∃ k : Int, (s.clock.correction.natAbs < v.toNat → k = s.clock.correction)
        ∧ (v ≤ s.clock.correction → k = v - 1) ∧ (s.clock.correction ≤ -v → k = -(v - 1))
        ∧ Responds c s tag 0x02 (res v) (u16 1 ++ i32 v)
          { s.begun c with clock := { s.clock with stepThreshold := v.toNat, correction := k } })
    ∧ (let c : Instr := .configureSlewRate tag value
      let v := fit 1 60
      Responds c s tag 0x02 (res v) (u16 2 ++ i32 v)
        { s.begun c with clock :=
          { s.clock with slewRate := v.toNat, slewInterval := 60000 / v.toNat, slewCounter := 0 } })
    ∧ (let c : Instr := .configureDetectorThreshold tag true value
      let v := max (fit 256 32767) (s.za.detLow + 1)
      Responds c s tag 0x02 (res v) (u16 9 ++ i32 v) { s.begun c with za := { s.za with detHigh := v.toNat } })
    ∧ (let c : Instr := .configureDetectorThreshold tag false value
      let v := min (fit 256 32767) ((s.za.detHigh : Int) - 1)
      0 ≤ v → Responds c s tag 0x02 (res v) (u16 10 ++ i32 v) { s.begun c with za := { s.za with detLow := v.toNat } })
    ∧ (∀ (rise : Bool) (op : Octet),
      let c : Instr := .configureEdgeEnables tag rise value op
      (2 < op.toNat → RespondsOnly c s tag 0x02 .field [])
      ∧ (op.toNat ≤ 2 → ∃ u data, Responds c s tag 0x02 .done data u ∧ { u with inputs := s.inputs } = s.begun c
        ∧ ∀ i : Fin 4,
          let old := if rise then s.inputs[i].rise else s.inputs[i].fall
          let bit := value.getLsbD i.val
          let new := if op.toNat = 0 then bit else if op.toNat = 1 then old || bit else old && !bit
          let r := if rise then new else s.inputs[i].rise
          let f := if rise then s.inputs[i].fall else new
          u.inputs[i] = { s.inputs[i] with rise := r, fall := f, latch := s.inputs[i].latch && (r || f) }))
    ∧ (let c : Instr := .configureDrillFloor tag value
      let v := fit 1 14
      ∃ u, Responds c s tag 0x02 (res v) (u16 14 ++ i32 v) u ∧ u.za = { s.za with drillFloor := v.toNat }
        ∧ (s.drill.state = .idle → u = { s.begun c with za := { s.za with drillFloor := v.toNat } })
        ∧ (s.drill.state ≠ .idle → s.NoPending → s.NoEvent → (∀ z : Fin 16, u.zones[z].owner = u.decideOwner z)
          ∧ u.claims = s.claims ∧ u.pages = s.pages ∧ u.gens = s.gens
          ∧ { u.still with za := s.za } = { (s.begun c).still with za := s.za }))

/-! ## READ -/

/-- READ refuses an unknown group and an item outside its group's range, FIELD without data. The items that return no
counter and no latch change nothing, whatever the clear flag, and return these fields: IDENT; CLOCK time and correction;
SCHEDULE banks and last firing; ENTRY; HOLIDAYS; PATTERN header and steps; GENERATOR; BELL QUEUE positions; ZONE part 1;
PAGE; ROOM records and polls; LEG and TRUNK links; dispatch entries; DRILL state and record; MUSTER; PARAM. Three fields
are the model's choice: the granted set that READ PAGE part 0 returns is computed from the owners, for a FREE page too,
which owns nothing (assumption 7); the octets of CONTINUOUS in READ GENERATOR's repeats remaining are a free value
(assumption 12); and the muster count that READ MUSTER returns is 0, without a presence octet, where there is no drill
record (assumption 10). (Widths, codes and presence octets: assumptions 9 to 11.) (When the events of a frame are taken:
assumption 2.) (Data octets: assumptions 9 to 11.) -/
def Obligations.ReadsObserve : Prop :=
  ∀ (tag group : Octet) (item : Word16) (clear : Bool) (s : State),
    let n := item.toNat
    let it (k : Nat) : Word16 := BitVec.ofNat 16 k
    let refuses (c : Instr) (inRange : Prop) : Prop := ¬inRange → RespondsOnly c s tag 0x03 .field []
    let gives (c : Instr) (fields : State → List Octet) : Prop := ReadsTo c s tag (fields (s.begun c)) (s.begun c)
    let since (b : State) (stamp : Option Word32) : List Octet := optional 4 (fun x => u32 (b.elapsed - x).toNat) stamp
    let bit (x : Bool) : Octet := if x then 1 else 0
    let entry (e : Option Entry) : List Octet := optional 14 (fun e => u32 e.second ++ [oct e.days.toNat] ++ u16 e.zones.toNat
      ++ [oct e.pattern, oct e.priority, bit e.holidaySkip, bit e.catchUp] ++ optional 2 (fun d => u16 d.toNat) e.fired) e
    let steps (p : Pattern) (first : Nat) : List Octet := (List.range 4).flatMap fun j =>
      optional 3 (fun x : PatStep => [oct x.kind.code] ++ u16 x.units) p.steps[first + j]?
    let link (p : Port) (source : List Octet) : List Octet := [bit p.up] ++ u16 p.bad ++ u16 p.good ++ source
      ++ [if p.assembler.pieces = [] then 0 else 1, bit p.tx.isSome] ++ u16 p.queue.length
      ++ u16 (p.queue.filter (·.urgent)).length
    RespondsOnly (.readUnknownGroup tag group item clear) s tag 0x03 .field []
    ∧ refuses (.readIdent tag item clear) (n = 0) ∧ refuses (.readEntry tag item clear) (n ≤ 255)
    ∧ refuses (.readHolidays tag item clear) (n ≤ 7) ∧ refuses (.readPattern tag item clear) (n ≤ 47)
    ∧ refuses (.readGenerator tag item clear) (n ≤ 4) ∧ refuses (.readPage tag item clear) (n ≤ 15)
    ∧ refuses (.readMuster tag item clear) (n ≤ 31)
    ∧ refuses (.readClock tag item clear) (n ≤ 2) ∧ refuses (.readSchedule tag item clear) (n ≤ 2)
    ∧ refuses (.readBellQueue tag item clear) (n ≤ 9) ∧ refuses (.readZone tag item clear) (n ≤ 48)
    ∧ refuses (.readRoom tag item clear) (n ≤ 135) ∧ refuses (.readLeg tag item clear) (n ≤ 15)
    ∧ refuses (.readTrunk tag item clear) (n ≤ 3 ∨ (0x40 ≤ n ∧ n ≤ 0xFF)) ∧ refuses (.readDrill tag item clear) (n ≤ 3)
    ∧ refuses (.readInputs tag item clear) (n = 0) ∧ refuses (.readParam tag item clear) (n ≤ 31)
    ∧ gives (.readIdent tag 0 clear) (fun _ => u16 0x0B17 ++ u16 4216 ++ u16 1)
    ∧ gives (.readClock tag 0 clear) (fun b => u32 b.clock.timeOfDay ++ u16 b.clock.day.toNat
        ++ [oct b.clock.weekday, oct b.clock.state.code, if b.ports[trunkPort].up then 0 else 1])
    ∧ gives (.readClock tag 1 clear) (fun b => i32 b.clock.correction ++ u16 b.clock.slewCounter
        ++ optional 4 (fun x => u32 x.toNat) b.clock.lastAccept ++ u32 b.elapsed.toNat)
    ∧ gives (.readSchedule tag 0 clear) (fun b => let x := b.sched
        [if x.aActive then 0 else 1, if x.aActive then 1 else 0, oct x.cursor] ++ u16 x.cursorDay.toNat
          ++ [oct x.cursorWeekday, bit x.commitPending] ++ u16 ((List.finRange 128).filter fun i => x.bankA[i].isSome).length
          ++ u16 ((List.finRange 128).filter fun i => x.bankB[i].isSome).length)
    ∧ gives (.readSchedule tag 2 clear) (fun b => optional 9 (fun f => [oct f.slot] ++ u16 f.day.toNat ++ u32 f.second
        ++ [bit f.catchUp, oct f.outcome.code]) b.sched.lastFiring)
    ∧ (∀ i : Fin 128, gives (.readEntry tag (it i.val) clear) (fun b => 0 :: entry b.sched.activeBank[i])
      ∧ gives (.readEntry tag (it (128 + i.val)) clear) (fun b => 1 :: entry b.sched.stagedBank[i]))
    ∧ (∀ k : Fin 8, gives (.readHolidays tag (it k.val) clear) (fun b => u16 b.sched.holidays.length
        ++ (List.range 4).flatMap fun j => optional 2 (fun d => u16 d.toNat) b.sched.holidays[4 * k.val + j]?))
    ∧ (∀ k : Fin 16,
      gives (.readPattern tag (it k.val) clear) (fun b => optional 12 (fun p => u16 p.toneA ++ optional 2 u16 p.toneB
        ++ u16 p.amplitude ++ [bit p.inverted] ++ u16 p.repeatCount ++ u16 p.steps.length) b.arb.patterns[k])
      ∧ gives (.readPattern tag (it (16 + k.val)) clear) (fun b => optional 16 (fun p => steps p 0) b.arb.patterns[k])
      ∧ gives (.readPattern tag (it (32 + k.val)) clear) (fun b => optional 16 (fun p => steps p 4) b.arb.patterns[k]))
    ∧ (∀ k : Fin 5, gives (.readGenerator tag (it k.val) clear) (fun b => let g := b.gens[k]
        [bit g.running, oct g.use.code, bit g.held, oct g.pattern, oct g.priority] ++ u16 g.zones.toNat ++ [oct g.stepIndex]
          ++ u16 g.remaining ++ g.repeats.field ++ optional 1 (fun p => [oct p.val]) g.page
          ++ optional 1 (fun o => [oct o.code]) g.origin))
    ∧ (∀ k : Fin 8, gives (.readBellQueue tag (it k.val) clear) (fun b =>
        optional 9 (fun r => u16 r.zones.toNat ++ [oct r.pattern, oct r.priority, oct r.origin.code]
          ++ u32 (b.elapsed - r.stamp).toNat) b.arb.queue[k.val]?
        ++ optional 2 u16 (if k.val < b.arb.queue.length then none else some b.arb.queue.length)))
    ∧ (∀ z : Fin 16, gives (.readZone tag (it (16 + z.val)) clear) (fun b => let k := b.zones[z]
        optional 1 (fun p => [oct p.val]) k.background ++ u16 k.ga ++ u16 k.gb ++ u16 k.depth ++ u16 k.duck))
    ∧ (∀ p : Fin 8,
      gives (.readPage tag (it p.val) clear) (fun b => let g := b.pages[p]
        [oct g.state.code, oct g.priority] ++ u16 g.wanted.toNat ++ u16 (b.granted p).toNat ++ optional 1 u8 g.chime
          ++ optional 1 (fun k => [oct k.val]) g.chimeGen ++ [bit g.chimeSkipped, bit g.allOrNone, bit g.silenceClose])
      ∧ gives (.readPage tag (it (8 + p.val)) clear) (fun b => let g := b.pages[p]
        u32 (b.elapsed - g.openStamp).toNat ++ [g.tag] ++ u16 b.detectors[p].envelope
          ++ [if b.detectors[p].active then 0 else 1] ++ since b g.silenceStamp))
    ∧ (∀ r : Fin 128, gives (.readRoom tag (it r.val) clear) (fun b => let x := b.rooms[r]
        [if x.state = .absent then 0 else 1, oct x.state.code] ++ optional 4 i32 x.lastError ++ u16 x.missed
          ++ u16 x.corrections ++ since b x.lastReply))
    ∧ (∀ l : Fin 4,
      gives (.readRoom tag (it (128 + l.val)) clear) (fun b => let x := b.polls[l]
        u32 (b.expectedSet l).toNat ++ optional 1 (fun r => [oct r.val]) x.lastPolled
          ++ optional 2 (fun q => [oct q.room.val, bit q.departed.isSome]) x.poll ++ [bit (x.poll.any (·.voided))]
          ++ since b (x.poll.bind fun q => q.departed.map (·.stamp))
          ++ optional 4 u32 (x.poll.bind fun q => q.departed.map (·.time)) ++ [bit x.owed])
      ∧ gives (.readLeg tag (it l.val) clear) (fun b => link b.ports[legPort l] []))
    ∧ gives (.readTrunk tag 0 clear) (fun b => link b.ports[trunkPort] [if b.ports[trunkPort].up then 0 else 1])
    ∧ (∀ kind : Octet, 0x40 ≤ kind.toNat → gives (.readTrunk tag (it kind.toNat) clear) (fun b =>
        let e := b.table[tableIndex kind]
        [bit !e.down, bit !e.up, bit !e.urgent, bit !e.withhold]))
    ∧ gives (.readDrill tag 0 clear) (fun b => let d := b.drill
        [oct d.state.code] ++ optional 1 (fun c => [oct c.code]) d.cause ++ u32 (b.elapsed - d.entryStamp).toNat
          ++ optional 4 u32 d.elapsed ++ [oct d.owed.toNat])
    ∧ gives (.readDrill tag 1 clear) (fun b => optional 17 (fun r => [bit r.byKey] ++ optional 1 (fun t => [t]) r.tag
        ++ optional 6 (fun x => u16 x.1.toNat ++ u32 x.2) r.startTime ++ u16 r.prealert ++ u16 r.target
        ++ u16 r.staff.toNat ++ [bit r.autoHold]) b.drill.record)
    ∧ gives (.readDrill tag 2 clear) (fun b => optional 30 (fun r => optional 4 (fun x => u32 x.toNat) r.evacStart
        ++ optional 4 u32 r.holdReached ++ optional 1 (fun c => [oct c.code]) r.holdCause
        ++ optional 1 (fun c => [oct c.code]) r.endReason ++ u16 r.musterCount ++ u16 r.clearedCount
        ++ optional 4 u32 r.lastClear ++ optional 1 (fun y => [bit !y]) r.allCleared ++ u16 r.bellsWithheld
        ++ optional 2 (fun z => u16 z.toNat) r.faulted) b.drill.record)
    ∧ (∀ k : Fin 32, gives (.readMuster tag (it k.val) clear) (fun b =>
        u16 ((b.drill.record.map (·.musterCount)).getD 0) ++ (List.range 4).flatMap fun j =>
          optional 6 (fun e => [oct e.room] ++ optional 4 u32 e.cleared) b.drill.muster[4 * k.val + j]?))
    ∧ (∀ k, 1 ≤ k → k ≤ 31 → gives (.readParam tag (it k) clear) (fun b => u16 k ++ i32 (b.param k)))

/-- The items that a READ clears: counters with the clear flag set, returned as they stood and 0 afterwards, as they stand
without it; the health latch of a zone and the latches of the inputs always. READ of a zone's clip counter in a frame in
which the zone is saturated returns it, and clears it, with or without that frame's count, one or the other (assumption
32). (Cleared before the parts are offered: assumption 27.) (When the events of a frame are taken: assumption 2.) (Data
octets: assumptions 9 to 11.) -/
def Obligations.ReadsClear : Prop :=
  ∀ (tag : Octet) (s : State) (z : Fin 16) (leg : Fin 4),
    let it (n : Nat) : Word16 := BitVec.ofNat 16 n
    let since (b : State) (stamp : Option Word32) : List Octet := optional 4 (fun x => u32 (b.elapsed - x).toNat) stamp
    let bit (x : Bool) : Octet := if x then 1 else 0
    let row (c : Bool → Instr) (fields : State → List Octet) (values : State → List Nat) (zeroed : State → State) : Prop :=
      ReadsTo (c true) s tag (fields (s.begun (c true)) ++ (values (s.begun (c true))).flatMap u16)
        (zeroed (s.begun (c true)))
      ∧ ReadsTo (c false) s tag (fields (s.begun (c false)) ++ (values (s.begun (c false))).flatMap u16) (s.begun (c false))
    let zone (b : State) : List Nat := [b.zones[z].filtered, b.zones[z].clip, b.zones[z].unconfirmed]
    let zeroZone (b : State) : State := b.modZone z fun x => { x with filtered := 0, clip := 0, unconfirmed := 0 }
    let zoneRow (c : Bool → Instr) (u : Bool → State) : Prop :=
      ReadsTo (c true) s tag ((zone (u true)).flatMap u16) (zeroZone (u true))
      ∧ ReadsTo (c false) s tag ((zone (u false)).flatMap u16) (u false)
    let counted (b : State) : State := { b with
      clipDue := 0
      zones := Vector.ofFn fun y => { b.zones[y] with
        clip := if b.clipDue.getLsbD y.val then min (b.zones[y].clip + 1) 65535 else b.zones[y].clip } }
    row (.readClock tag 2) (fun _ => []) (fun b => [b.clock.sets, b.clock.steps, b.clock.slews, b.clock.holdovers])
      (fun b => b.modClock fun x => { x with sets := 0, steps := 0, slews := 0, holdovers := 0 })
    ∧ row (.readSchedule tag 1) (fun _ => [])
      (fun b => [b.sched.fired, b.sched.withheld, b.sched.skipped, b.sched.noPattern])
      (fun b => b.modSched fun x => { x with fired := 0, withheld := 0, skipped := 0, noPattern := 0 })
    ∧ row (.readBellQueue tag 8) (fun _ => [])
      (fun b => [b.arb.started, b.arb.merged, b.arb.queued, b.arb.queueMerged, b.arb.fullDrop])
      (fun b => b.modArb fun x => { x with started := 0, merged := 0, queued := 0, queueMerged := 0, fullDrop := 0 })
    ∧ row (.readBellQueue tag 9) (fun _ => [])
      (fun b => [b.arb.lateDiscard, b.arb.emptyDiscard, b.arb.chimesStarted, b.arb.chimesRefused])
      (fun b => b.modArb fun x => { x with lateDiscard := 0, emptyDiscard := 0, chimesStarted := 0, chimesRefused := 0 })
    ∧ (let c : Bool → Instr := .readZone tag (it (32 + z.val))
      (s.clipDue.getLsbD z.val = false → zoneRow c fun clear => s.begun (c clear))
      ∧ (s.clipDue.getLsbD z.val = true →
        (zoneRow c fun clear => { counted (s.begun (c clear)) with choices := s.choices + 1 })
        ∨ (zoneRow c fun clear => { s.begun (c clear) with choices := s.choices + 1 })))
    ∧ row (.readZone tag 48) (fun _ => []) (fun b => [b.za.strayReady]) (fun b => b.modZa fun x => { x with strayReady := 0 })
    ∧ row (.readRoom tag (it (132 + leg.val))) (fun _ => [])
      (fun b => let l := b.polls[leg]
        [l.departed, l.taken, l.misses, l.late, l.voided, l.refused, l.setsQueued, l.setsRefused])
      (fun b => b.modPoll leg fun l => { l with
        departed := 0, taken := 0, misses := 0, late := 0, voided := 0, refused := 0, setsQueued := 0, setsRefused := 0 })
    ∧ row (.readLeg tag (it (4 + leg.val)))
      (fun b => let m := b.meas[leg]
        [bit m.zone.isSome] ++ optional 1 (fun k => [oct (zoneOf leg k).val]) m.zone ++ [m.number] ++ since b m.departure
          ++ since b m.retry ++ (List.finRange 4).flatMap fun k => optional 1 (fun i => [i]) b.zones[zoneOf leg k].impedance)
      (fun b => let m := b.meas[leg]; [m.started, m.completed, m.timedOut, m.aborted, m.refused, m.stray])
      (fun b => b.modMeas leg fun m =>
        { m with started := 0, completed := 0, timedOut := 0, aborted := 0, refused := 0, stray := 0 })
    ∧ row (.readLeg tag (it (8 + leg.val))) (fun _ => [])
      (fun b => let p := b.ports[legPort leg]; [p.badFrames, p.syncLosses, p.received, p.assemblyErrors])
      (fun b => b.modPort (legPort leg) fun p =>
        { p with badFrames := 0, syncLosses := 0, received := 0, assemblyErrors := 0 })
    ∧ row (.readLeg tag (it (12 + leg.val))) (fun _ => [])
      (fun b => let p := b.ports[legPort leg]; [p.accepted, p.gathered, p.departed, p.dropped, p.evicted, p.downRefused])
      (fun b => b.modPort (legPort leg) fun p =>
        { p with accepted := 0, gathered := 0, departed := 0, dropped := 0, evicted := 0, downRefused := 0 })
    ∧ row (.readTrunk tag 1) (fun _ => [])
      (fun b => let p := b.ports[trunkPort]; [p.badFrames, p.syncLosses, p.received, p.assemblyErrors])
      (fun b => b.modPort trunkPort fun p =>
        { p with badFrames := 0, syncLosses := 0, received := 0, assemblyErrors := 0 })
    ∧ row (.readTrunk tag 2) (fun _ => [])
      (fun b => let p := b.ports[trunkPort]; [p.accepted, p.gathered, p.departed, p.dropped, p.evicted])
      (fun b => b.modPort trunkPort fun p =>
        { p with accepted := 0, gathered := 0, departed := 0, dropped := 0, evicted := 0, downRefused := 0 })
    ∧ row (.readTrunk tag 3) (fun _ => [])
      (fun b => [b.disp.misaddressed, b.disp.unknown, b.disp.tableDropped, b.disp.withheld])
      (fun b => b.modDisp fun _ => { misaddressed := 0, unknown := 0, tableDropped := 0, withheld := 0 })
    ∧ row (.readDrill tag 3) (fun _ => [])
      (fun b => [b.drill.drillsStarted, b.drill.alarmOnsets, b.drill.clearsRepeated, b.drill.clearsStray])
      (fun b => b.modDrill fun x =>
        { x with drillsStarted := 0, alarmOnsets := 0, clearsRepeated := 0, clearsStray := 0 })
    ∧ row (.readParam tag 0) (fun b => optional 1 (fun t => [t]) b.mgmt.deferred)
      (fun b => [b.mgmt.executed, b.mgmt.refused, b.mgmt.lostResponses, b.mgmt.lostNotices])
      (fun b => b.modMgmt fun m => { m with executed := 0, refused := 0, lostResponses := 0, lostNotices := 0 })
    ∧ (∀ clear, let c : Instr := .readZone tag (it z.val) clear
      let b := s.begun c
      let k := b.zones[z]
      let mode : Nat := match k.mode with | .day => 1 | .quiet => 7 | .night => 12 | .closed => 15
      let floor : Nat := if b.drill.state = .idle then mode else max mode b.za.drillFloor
      let owner (o : Fin 13) : List Octet := [oct o.val, oct ((b.claims[o].map (·.priority)).getD 0)]
      let waits : BitVec 13 := Sys2Proof.Machine.setOf fun o =>
        (b.claims[o].any fun x => x.wanted.getLsbD z.val) && decide (k.owner ≠ some o)
      ReadsTo c s tag ([oct k.mode.code, oct floor] ++ optional 2 owner k.owner ++ u16 waits.toNat
          ++ [oct k.power.code, oct k.test.code, oct k.health.code, bit k.healthLatch])
        (b.modZone z fun x => { x with healthLatch := false }))
    ∧ (∀ clear, let c : Instr := .readInputs tag 0 clear
      let b := s.begun c
      ReadsTo c s tag ((List.finRange 4).flatMap fun i => let x := b.inputs[i]
          [if x.raw then 0 else 1, if x.level then 0 else 1] ++ u32 (b.elapsed - x.changeStamp).toNat
            ++ [bit x.latch, bit x.rise, bit x.fall])
        { b with inputs := Vector.ofFn fun i => { s.inputs[i] with latch := false } })

/-! ## RESET -/

/-- RESET is answered DONE after the command reset: generators IDLE, bell queue and draft gone, pages FREE, claims
withdrawn and zones without owner, tests ended, commit abandoned, polls ended or voided, drill state IDLE with DRILL STATE
owed to every leg, PANEL ALARM's level INACTIVE. Campus time, banks and holidays, patterns, parameters, modes and
settings, rooms, queues, links, the dispatch table and the counters stand. Every zone that had an owner counts as taken in
the frame (assumption 36). (When the events of a frame are taken: assumption 2.) -/
def Obligations.CommandResetResult : Prop :=
  ∀ (tag : Octet) (s : State), s.Settled → ∃ u, Responds (.reset tag) s tag 0x04 .done [] u
    ∧ (∀ g : Fin 5, u.gens[g] = { s.gens[g] with running := false })
    ∧ u.arb = { s.arb with queue := [], draft := none }
    ∧ (∀ p : Fin 8, u.pages[p] = { s.pages[p] with state := .free }) ∧ (∀ c : Fin 13, u.claims[c] = none)
    ∧ (∀ z : Fin 16, u.zones[z] =
        { s.zones[z] with owner := none, test := .none, idleStamp := u.zones[z].idleStamp })
    ∧ (∀ l : Fin 4, u.meas[l] = { s.meas[l] with zone := none, departure := none, retry := none }
        ∧ (s.polls[l].poll = none → u.polls[l] = s.polls[l])
        ∧ (∀ q, s.polls[l].poll = some q → u.polls[l] = { s.polls[l] with
            poll := if q.departed = none then some { q with voided := true } else none }))
    ∧ u.sched = { s.sched with commitPending := false }
    ∧ u.drill = { s.drill with state := .idle, entryStamp := s.elapsed, cause := none, owed := 0xF }
    ∧ u.inputs = s.inputs.set 0 { s.inputs[(0 : Fin 4)] with level := false, changeStamp := s.elapsed }
    ∧ u.mgmt = { (s.begun (.reset tag)).mgmt with deferred := none }
    ∧ (∀ z : Fin 16, u.contest.taken.getLsbD z.val = (s.contest.taken.getLsbD z.val
        || ((s.zones[z].owner).isSome && !s.contest.now.taken.getLsbD z.val)))
    ∧ u.contest.now = s.contest.now
    ∧ { u with gens := s.gens, arb := s.arb, pages := s.pages, claims := s.claims, zones := s.zones, meas := s.meas
               polls := s.polls, sched := s.sched, drill := s.drill, inputs := s.inputs, mgmt := s.mgmt
               contest := s.contest, due := s.due } = s

/-! ## The schedule -/

/-- SCHEDULE_WRITE: while a commit is PENDING, BUSY; an unknown operation, a slot above 127, or an ENTRY with a second
above 86,399, no weekday, no zone or a pattern above 15, FIELD; otherwise the slot of the STAGED bank takes the entry with
its priority clamped and no stamp, or becomes empty, and every other slot, the ACTIVE bank and the rest of the schedule
stand. Every answer carries the slot index, that of a refused command too (assumption 34). (When the events of a frame are
taken: assumption 2.) -/
def Obligations.ScheduleWritten : Prop :=
  ∀ (tag slot : Octet) (second : Word32) (days : DaySet) (zones : ZoneSet) (pattern prio : Octet) (skip catchUp : Bool)
    (op : Octet) (s : State),
    let w : Instr := .scheduleWriteEntry tag slot second days zones pattern prio skip catchUp
    let m : Instr := .scheduleWriteEmpty tag slot
    let x : Instr := .scheduleWriteUnknownOperation tag slot op
    let p := max 1 (min 13 prio.toNat)
    let writes (u : State) (e : Option Entry) : Prop :=
      (∀ i : Fin 128, u.sched.stagedBank[i] = if i.val = slot.toNat then e else s.sched.stagedBank[i])
      ∧ u.sched.activeBank = s.sched.activeBank
      ∧ { u.sched with bankA := s.sched.bankA, bankB := s.sched.bankB } = s.sched
    (s.sched.commitPending = true → RespondsOnly w s tag 0x10 .busy [slot] ∧ RespondsOnly m s tag 0x10 .busy [slot]
      ∧ RespondsOnly x s tag 0x10 .busy [slot])
    ∧ (s.sched.commitPending = false →
      RespondsOnly x s tag 0x10 .field [slot]
      ∧ (127 < slot.toNat → RespondsOnly w s tag 0x10 .field [slot] ∧ RespondsOnly m s tag 0x10 .field [slot])
      ∧ ((86399 < second.toNat ∨ days = 0 ∨ zones = 0 ∨ 15 < pattern.toNat) → RespondsOnly w s tag 0x10 .field [slot])
      ∧ (slot.toNat ≤ 127 →
        (∃ u, Responds m s tag 0x10 .done [slot] u ∧ writes u none ∧ { u with sched := s.sched } = s.begun m)
        ∧ (second.toNat ≤ 86399 → days ≠ 0 → zones ≠ 0 → pattern.toNat ≤ 15 →
          ∃ u, Responds w s tag 0x10 (if p = prio.toNat then .done else .clamped) [slot] u
            ∧ { u with sched := s.sched } = s.begun w
            ∧ writes u (some { second := second.toNat, days, zones, pattern := pattern.toNat, priority := p
                               holidaySkip := skip, catchUp, fired := none }))))

/-- SCHEDULE_COMMIT: BUSY while one is PENDING. Otherwise ORDER with the first slot whose second is below an earlier
entry's; in order, NO-PATTERN with the lowest slot naming an empty pattern; then CONFLICT with the colliding pair of
lowest j, and for it of lowest i. A valid commit becomes PENDING with its tag deferred and no answer, or, while UNSET, the
banks exchange roles at once, with SCHEDULE-SWAP and then the answer (assumption 33). (When the events of a frame are
taken: assumption 2.) (Data octets: assumptions 9 to 11.) -/
def Obligations.ScheduleCommitted : Prop :=
  ∀ (tag : Octet) (s : State),
    let c : Instr := .scheduleCommit tag
    let at_ (i : Fin 128) : Option Entry := s.sched.stagedBank[i]
    let below (i j : Fin 128) : Prop := i < j ∧ ∃ a b, at_ i = some a ∧ at_ j = some b ∧ b.second < a.second
    let empty (i : Fin 128) : Prop := ∃ a, at_ i = some a ∧ s.arb.pattern a.pattern = none
    let collide (i j : Fin 128) : Prop := i < j ∧ ∃ a b, at_ i = some a ∧ at_ j = some b ∧ a.second = b.second
      ∧ a.days &&& b.days ≠ 0 ∧ a.zones &&& b.zones ≠ 0
    let ordered : Prop := ∀ i j, ¬below i j
    let rings : Prop := ∀ i, ¬empty i
    (s.sched.commitPending = true → RespondsOnly c s tag 0x11 .busy [])
    ∧ (s.sched.commitPending = false →
      (∀ i j, below i j → (∀ k l, l < j → ¬below k l) → RespondsOnly c s tag 0x11 .order (u8 j.val))
      ∧ (∀ i, ordered → empty i → (∀ k < i, ¬empty k) → RespondsOnly c s tag 0x11 .noPattern (u8 i.val))
      ∧ (∀ i j, ordered → rings → collide i j → (∀ k l, l < j → ¬collide k l) → (∀ k < i, ¬collide k j) →
          RespondsOnly c s tag 0x11 .conflict (u8 i.val ++ u8 j.val))
      ∧ (ordered → rings → (∀ i j, ¬collide i j) →
        (s.clock.state ≠ .unset → exec c s = .next { s.begun c with
            sched := { s.sched with commitPending := true }, mgmt := { (s.begun c).mgmt with deferred := some tag } })
        ∧ (s.clock.state = .unset → ∃ x : State,
          let count := ((List.finRange 128).filter fun i => (at_ i).isSome).length
          let data := u16 count ++ u16 s.clock.day.toNat ++ u32 (s.clock.timeOfDay / 1000)
          exec c s = .next (respond tag 0x11 .done data (notify .scheduleSwap 0 data x))
          ∧ x.sched.aActive = (!s.sched.aActive) ∧ x.sched.commitPending = false
          ∧ (∀ i : Fin 128, x.sched.stagedBank[i] = s.sched.activeBank[i].map fun e => { e with fired := none })
          ∧ (∀ i : Fin 128, x.sched.activeBank[i] = (at_ i).map fun e =>
              { e with fired := if e.second ≤ s.clock.timeOfDay / 1000 then some s.clock.day else none })
          ∧ { x.sched with aActive := s.sched.aActive, commitPending := s.sched.commitPending, bankA := s.sched.bankA
                           bankB := s.sched.bankB, cursor := s.sched.cursor } = s.sched
          ∧ x.mgmt = { (s.begun c).mgmt with deferred := none }
          ∧ { x with sched := s.sched, mgmt := s.mgmt } = { s.begun c with sched := s.sched, mgmt := s.mgmt })))

/-- HOLIDAY_WRITE: ADD of a listed day changes nothing and is DONE, of a new day is FULL with 32 listed and otherwise puts
it at its place; REMOVE takes a day out; CLEAR empties the list; an unknown operation is FIELD. Every answer carries the
operation and the number of days after it; nothing else changes. (When the events of a frame are taken: assumption 2.)
(Data octets: assumptions 9 to 11.) -/
def Obligations.HolidaysWritten : Prop :=
  ∀ (tag op : Octet) (day : Day) (s : State),
    let old := s.sched.holidays
    let becomes (c : Instr) (op : Octet) (l : List Day) : Prop :=
      Responds c s tag 0x12 .done (op :: u16 l.length) { s.begun c with sched := { s.sched with holidays := l } }
    RespondsOnly (.holidayWriteUnknownOperation tag op) s tag 0x12 .field (op :: u16 old.length)
    ∧ (day ∈ old → RespondsOnly (.holidayWriteAdd tag day) s tag 0x12 .done (0 :: u16 old.length))
    ∧ (day ∉ old → 32 ≤ old.length → RespondsOnly (.holidayWriteAdd tag day) s tag 0x12 .full (0 :: u16 old.length))
    ∧ (∀ l r, day ∉ old → old.length < 32 → old = l ++ r → (∀ d ∈ l, d.toNat < day.toNat) →
        (∀ d ∈ r, day.toNat < d.toNat) → becomes (.holidayWriteAdd tag day) 0 (l ++ day :: r))
    ∧ becomes (.holidayWriteRemove tag day) 1 (old.filter fun d => decide (d ≠ day))
    ∧ becomes (.holidayWriteClear tag) 2 []

/-- A firing stamps its entry and replaces the last-firing record. While the drill state is not IDLE or BELL INHIBIT is
active it is withheld and counted, in the record of a drill in its course too, and no bell is asked for; otherwise, with
an empty pattern, it is counted as such and no bell is asked for; otherwise it is counted as fired and sends a bell
request with its zones, pattern and priority and its slot as origin, and the record keeps the arbiter's outcome. The
second-boundary signal, the clock set: the entries of the ACTIVE bank from the cursor up to the first above the second
fire in slot order, but for those that another weekday, a holiday or the day's own stamp passes, the cursor is left at
that first one or at 128, and a pending commit then swaps the banks. -/
def Obligations.ScheduleRings : Prop :=
  (∀ (i : Fin 128) (e : Entry) (day : Day) (second : Nat) (catchUp : Bool) (s : State),
    s.sched.activeBank[i] = some e →
    let t := fireEntry i e day second catchUp s
    let stampedIn (x : Sched) : Prop := x.activeBank[i] = some { e with fired := some day }
      ∧ (∀ j : Fin 128, j ≠ i → x.activeBank[j] = s.sched.activeBank[j]) ∧ x.stagedBank = s.sched.stagedBank
    let stamped (o : FireOutcome) : Prop := stampedIn t.sched
      ∧ t.sched.lastFiring = some { slot := i.val, day, second, catchUp, outcome := o }
    ((s.drill.state ≠ .idle ∨ s.inputs[(3 : Fin 4)].level = true) →
      stamped .withheld ∧ t.sched.withheld = min (s.sched.withheld + 1) 65535 ∧ t.sched.noPattern = s.sched.noPattern
      ∧ t.sched.fired = s.sched.fired
      ∧ (∀ r, s.drill.record = some r → t.drill.record = some { r with
          bellsWithheld := if s.drill.state.inDrill = true then min (r.bellsWithheld + 1) 65535 else r.bellsWithheld })
      ∧ { t with sched := s.sched, drill := { t.drill with record := s.drill.record } } = s)
    ∧ (s.drill.state = .idle → s.inputs[(3 : Fin 4)].level = false →
      (s.arb.pattern e.pattern = none →
        stamped .noPattern ∧ t.sched.noPattern = min (s.sched.noPattern + 1) 65535 ∧ t.sched.withheld = s.sched.withheld
        ∧ t.sched.fired = s.sched.fired ∧ { t with sched := s.sched } = s)
      ∧ (∀ p, s.arb.pattern e.pattern = some p → ∃ b : State,
        { b with sched := s.sched } = s ∧ stampedIn b.sched
        ∧ { b.sched with bankA := s.sched.bankA, bankB := s.sched.bankB, fired := s.sched.fired } = s.sched
        ∧ b.sched.fired = min (s.sched.fired + 1) 65535
        ∧ (let r := bellRequest e.zones e.pattern e.priority (.slot i.val) b
          t = { r.1 with sched := { b.sched with
            lastFiring := some { slot := i.val, day, second, catchUp, outcome := r.2.outcome } } }))))
  ∧ ∀ (second : Nat) (day : Day) (weekday j : Nat) (s : State),
    let at_ (i : Fin 128) : Option Entry := s.sched.activeBank[i]
    (s.clock.state = .unset → schedSecond second day weekday s = s)
    ∧ (s.clock.state ≠ .unset → s.sched.cursor ≤ j →
      (∀ i e, s.sched.cursor ≤ i.val → i.val < j → at_ i = some e → e.second ≤ second) →
      (j = 128 ∨ ∃ i e, i.val = j ∧ at_ i = some e ∧ second < e.second) →
      let due (i : Fin 128) : Bool := decide (s.sched.cursor ≤ i.val ∧ i.val < j) && (at_ i).any fun e =>
        e.days.getLsbD weekday && !(e.holidaySkip && s.sched.holidays.contains day) && decide (e.fired ≠ some day)
      let u := ((List.finRange 128).filter due).foldl (fun v i => (at_ i).elim v fun e => fireEntry i e day second false v)
        { s with sched := { s.sched with cursorDay := day, cursorWeekday := weekday } }
      let t : State := { u with sched := { u.sched with cursor := j } }
      (s.sched.commitPending = false → schedSecond second day weekday s = t)
      ∧ ∀ tag, s.sched.commitPending = true → s.mgmt.deferred = some tag →
          schedSecond second day weekday s = swapBanks day second tag t)

/-- The swap at a second boundary: the banks exchange roles, the entries of the new ACTIVE bank at or below the second are
stamped with the day and no other entry is, the cursor stands at the first entry above the second, the deferred answer
goes out and then SCHEDULE-SWAP (assumption 33). The midnight signal: the cursor is 0, the past days leave the holiday
list. The step signal: within the same second nothing changes; backward the cursor stands at the first entry above the new
second and nothing fires; forward, the due entries that the step passes over are those of the new day below the new second
(and, within one day, above the old second) that are not passed: the highest with catch-up and within the window fires,
the new second being the one recorded (assumption 21), the others are stamped and counted as skipped, as are, unstamped,
the leftovers of the old day of a step across midnight, and the cursor stands at the first entry at or above the new
second. (Data octets: assumptions 9 to 11.) -/
def Obligations.ScheduleFollowsClock : Prop :=
  ∀ (day oldDay : Day) (second weekday oldTime newTime : Nat) (tag : Octet) (s : State),
    let firstAt (x : Sched) (test : Nat → Prop) : Prop :=
      (x.cursor = 128 ∧ ∀ (i : Fin 128) e, x.activeBank[i] = some e → ¬test e.second)
      ∨ ∃ (i : Fin 128) (e : Entry), x.cursor = i.val ∧ x.activeBank[i] = some e ∧ test e.second
          ∧ ∀ j < i, ∀ f, x.activeBank[j] = some f → ¬test f.second
    let noted (x : Sched) : Prop := x.cursorDay = day ∧ x.cursorWeekday = weekday
    (∃ x : State,
      let count := ((List.finRange 128).filter fun i => (s.sched.stagedBank[i]).isSome).length
      let data := u16 count ++ u16 day.toNat ++ u32 second
      swapBanks day second tag s = notify .scheduleSwap 0 data (respond tag 0x11 .done data x)
      ∧ x.sched.aActive = (!s.sched.aActive) ∧ x.sched.commitPending = false
      ∧ (∀ i : Fin 128, x.sched.stagedBank[i] = s.sched.activeBank[i].map fun e => { e with fired := none })
      ∧ (∀ i : Fin 128, x.sched.activeBank[i] = s.sched.stagedBank[i].map fun e =>
          { e with fired := if e.second ≤ second then some day else none })
      ∧ firstAt x.sched (fun n => second < n)
      ∧ { x.sched with aActive := s.sched.aActive, commitPending := s.sched.commitPending, bankA := s.sched.bankA
                       bankB := s.sched.bankB, cursor := s.sched.cursor } = s.sched
      ∧ x.mgmt = { s.mgmt with deferred := none } ∧ { x with sched := s.sched, mgmt := s.mgmt } = s)
    ∧ schedMidnight day weekday s = { s with sched := { s.sched with
        cursor := 0, cursorDay := day, cursorWeekday := weekday
        holidays := s.sched.holidays.filter fun h => decide ((h - day).toNat < 32768) } }
    ∧ (let d : Int := (day - oldDay).toInt
      let so := oldTime / 1000
      let sn := newTime / 1000
      let t := schedStep oldTime oldDay newTime day weekday s
      let forward : Prop := 0 < d ∨ (d = 0 ∧ so < sn)
      let passed (e : Entry) (dd : Day) (w : Nat) : Bool :=
        !e.days.getLsbD w || (e.holidaySkip && s.sched.holidays.contains dd) || decide (e.fired = some dd)
      let at_ (i : Fin 128) : Option Entry := s.sched.activeBank[i]
      let due (i : Fin 128) : Bool := (at_ i).any fun e =>
        decide (e.second < sn ∧ (d = 0 → so < e.second)) && !passed e day weekday
      let late (i : Fin 128) : Bool := (at_ i).any fun e =>
        decide (0 < d ∧ so < e.second) && !passed e oldDay s.sched.cursorWeekday
      let reaches (i : Fin 128) : Bool := due i && (at_ i).any fun e =>
        e.catchUp && decide (sn ≤ e.second + s.sched.catchUpWindow)
      let total (l : List (Fin 128)) (n : Nat) : Nat := if l = [] then n else min (n + l.length) 65535
      let settings (x : Sched) : Sched := { x with
        bankA := s.sched.bankA, bankB := s.sched.bankB, cursor := 0, cursorDay := 0, cursorWeekday := 0, skipped := 0 }
      (d = 0 ∧ so = sn → t = s)
      ∧ ((d < 0 ∨ (d = 0 ∧ sn < so)) → firstAt t.sched (fun n => sn < n) ∧ noted t.sched ∧ { t with sched := s.sched } = s
        ∧ { t.sched with cursor := s.sched.cursor, cursorDay := s.sched.cursorDay
                         cursorWeekday := s.sched.cursorWeekday } = s.sched)
      ∧ (forward →
        firstAt t.sched (fun n => sn ≤ n) ∧ noted t.sched ∧ t.sched.stagedBank = s.sched.stagedBank
        ∧ (∀ i, t.sched.activeBank[i] = if due i then (at_ i).map fun e => { e with fired := some day } else at_ i)
        ∧ ((∀ i, reaches i = false) →
          t.sched.skipped = total ((List.finRange 128).filter late ++ (List.finRange 128).filter due) s.sched.skipped
          ∧ settings t.sched = settings s.sched ∧ { t with sched := s.sched } = s)
        ∧ (∀ i e, at_ i = some e → reaches i = true → (∀ j, i < j → reaches j = false) →
          t.sched.skipped = total ((List.finRange 128).filter late
            ++ (List.finRange 128).filter fun j => due j && decide (j ≠ i)) s.sched.skipped
          ∧ (let u := fireEntry i e day sn true s
            settings t.sched = settings u.sched ∧ { t with sched := s.sched } = { u with sched := s.sched }))))
end

