-- ==== Sys2Proof/Laws/State.lean ====
section
/-!
SUPPORT. One lemma per field per update of the state, each true by definition.
-/
namespace Sys2Proof.Machine

variable (s : State)

@[simp] theorem State.modClock_tickPhase (f : Clock → Clock) : (s.modClock f).tickPhase = s.tickPhase := rfl
@[simp] theorem State.modClock_elapsed (f : Clock → Clock) : (s.modClock f).elapsed = s.elapsed := rfl
@[simp] theorem State.modClock_clock (f : Clock → Clock) : (s.modClock f).clock = f s.clock := rfl
@[simp] theorem State.modClock_gens (f : Clock → Clock) : (s.modClock f).gens = s.gens := rfl
@[simp] theorem State.modClock_arb (f : Clock → Clock) : (s.modClock f).arb = s.arb := rfl
@[simp] theorem State.modClock_sched (f : Clock → Clock) : (s.modClock f).sched = s.sched := rfl
@[simp] theorem State.modClock_zones (f : Clock → Clock) : (s.modClock f).zones = s.zones := rfl
@[simp] theorem State.modClock_claims (f : Clock → Clock) : (s.modClock f).claims = s.claims := rfl
@[simp] theorem State.modClock_pages (f : Clock → Clock) : (s.modClock f).pages = s.pages := rfl
@[simp] theorem State.modClock_detectors (f : Clock → Clock) : (s.modClock f).detectors = s.detectors := rfl
@[simp] theorem State.modClock_za (f : Clock → Clock) : (s.modClock f).za = s.za := rfl
@[simp] theorem State.modClock_duckRate (f : Clock → Clock) : (s.modClock f).duckRate = s.duckRate := rfl
@[simp] theorem State.modClock_slotSamples (f : Clock → Clock) : (s.modClock f).slotSamples = s.slotSamples := rfl
@[simp] theorem State.modClock_meas (f : Clock → Clock) : (s.modClock f).meas = s.meas := rfl
@[simp] theorem State.modClock_testTimeout (f : Clock → Clock) : (s.modClock f).testTimeout = s.testTimeout := rfl
@[simp] theorem State.modClock_rooms (f : Clock → Clock) : (s.modClock f).rooms = s.rooms := rfl
@[simp] theorem State.modClock_polls (f : Clock → Clock) : (s.modClock f).polls = s.polls := rfl
@[simp] theorem State.modClock_roster (f : Clock → Clock) : (s.modClock f).roster = s.roster := rfl
@[simp] theorem State.modClock_drill (f : Clock → Clock) : (s.modClock f).drill = s.drill := rfl
@[simp] theorem State.modClock_inputs (f : Clock → Clock) : (s.modClock f).inputs = s.inputs := rfl
@[simp] theorem State.modClock_ports (f : Clock → Clock) : (s.modClock f).ports = s.ports := rfl
@[simp] theorem State.modClock_table (f : Clock → Clock) : (s.modClock f).table = s.table := rfl
@[simp] theorem State.modClock_disp (f : Clock → Clock) : (s.modClock f).disp = s.disp := rfl
@[simp] theorem State.modClock_mgmt (f : Clock → Clock) : (s.modClock f).mgmt = s.mgmt := rfl
@[simp] theorem State.modClock_sending (f : Clock → Clock) : (s.modClock f).sending = s.sending := rfl
@[simp] theorem State.modClock_sent (f : Clock → Clock) : (s.modClock f).sent = s.sent := rfl
@[simp] theorem State.modClock_contest (f : Clock → Clock) : (s.modClock f).contest = s.contest := rfl
@[simp] theorem State.modClock_clipDue (f : Clock → Clock) : (s.modClock f).clipDue = s.clipDue := rfl
@[simp] theorem State.modClock_choices (f : Clock → Clock) : (s.modClock f).choices = s.choices := rfl
@[simp] theorem State.modClock_due (f : Clock → Clock) : (s.modClock f).due = s.due := rfl
@[simp] theorem State.modClock_pending (f : Clock → Clock) : (s.modClock f).pending = s.pending := rfl

@[simp] theorem State.modGen_tickPhase (g : Fin 5) (f : Gen → Gen) : (s.modGen g f).tickPhase = s.tickPhase := rfl
@[simp] theorem State.modGen_elapsed (g : Fin 5) (f : Gen → Gen) : (s.modGen g f).elapsed = s.elapsed := rfl
@[simp] theorem State.modGen_clock (g : Fin 5) (f : Gen → Gen) : (s.modGen g f).clock = s.clock := rfl
@[simp] theorem State.modGen_gens (g : Fin 5) (f : Gen → Gen) : (s.modGen g f).gens = s.gens.set g (f s.gens[g]) := rfl
@[simp] theorem State.modGen_arb (g : Fin 5) (f : Gen → Gen) : (s.modGen g f).arb = s.arb := rfl
@[simp] theorem State.modGen_sched (g : Fin 5) (f : Gen → Gen) : (s.modGen g f).sched = s.sched := rfl
@[simp] theorem State.modGen_zones (g : Fin 5) (f : Gen → Gen) : (s.modGen g f).zones = s.zones := rfl
@[simp] theorem State.modGen_claims (g : Fin 5) (f : Gen → Gen) : (s.modGen g f).claims = s.claims := rfl
@[simp] theorem State.modGen_pages (g : Fin 5) (f : Gen → Gen) : (s.modGen g f).pages = s.pages := rfl
@[simp] theorem State.modGen_detectors (g : Fin 5) (f : Gen → Gen) : (s.modGen g f).detectors = s.detectors := rfl
@[simp] theorem State.modGen_za (g : Fin 5) (f : Gen → Gen) : (s.modGen g f).za = s.za := rfl
@[simp] theorem State.modGen_duckRate (g : Fin 5) (f : Gen → Gen) : (s.modGen g f).duckRate = s.duckRate := rfl
@[simp] theorem State.modGen_slotSamples (g : Fin 5) (f : Gen → Gen) : (s.modGen g f).slotSamples = s.slotSamples := rfl
@[simp] theorem State.modGen_meas (g : Fin 5) (f : Gen → Gen) : (s.modGen g f).meas = s.meas := rfl
@[simp] theorem State.modGen_testTimeout (g : Fin 5) (f : Gen → Gen) : (s.modGen g f).testTimeout = s.testTimeout := rfl
@[simp] theorem State.modGen_rooms (g : Fin 5) (f : Gen → Gen) : (s.modGen g f).rooms = s.rooms := rfl
@[simp] theorem State.modGen_polls (g : Fin 5) (f : Gen → Gen) : (s.modGen g f).polls = s.polls := rfl
@[simp] theorem State.modGen_roster (g : Fin 5) (f : Gen → Gen) : (s.modGen g f).roster = s.roster := rfl
@[simp] theorem State.modGen_drill (g : Fin 5) (f : Gen → Gen) : (s.modGen g f).drill = s.drill := rfl
@[simp] theorem State.modGen_inputs (g : Fin 5) (f : Gen → Gen) : (s.modGen g f).inputs = s.inputs := rfl
@[simp] theorem State.modGen_ports (g : Fin 5) (f : Gen → Gen) : (s.modGen g f).ports = s.ports := rfl
@[simp] theorem State.modGen_table (g : Fin 5) (f : Gen → Gen) : (s.modGen g f).table = s.table := rfl
@[simp] theorem State.modGen_disp (g : Fin 5) (f : Gen → Gen) : (s.modGen g f).disp = s.disp := rfl
@[simp] theorem State.modGen_mgmt (g : Fin 5) (f : Gen → Gen) : (s.modGen g f).mgmt = s.mgmt := rfl
@[simp] theorem State.modGen_sending (g : Fin 5) (f : Gen → Gen) : (s.modGen g f).sending = s.sending := rfl
@[simp] theorem State.modGen_sent (g : Fin 5) (f : Gen → Gen) : (s.modGen g f).sent = s.sent := rfl
@[simp] theorem State.modGen_contest (g : Fin 5) (f : Gen → Gen) : (s.modGen g f).contest = s.contest := rfl
@[simp] theorem State.modGen_clipDue (g : Fin 5) (f : Gen → Gen) : (s.modGen g f).clipDue = s.clipDue := rfl
@[simp] theorem State.modGen_choices (g : Fin 5) (f : Gen → Gen) : (s.modGen g f).choices = s.choices := rfl
@[simp] theorem State.modGen_due (g : Fin 5) (f : Gen → Gen) : (s.modGen g f).due = s.due := rfl
@[simp] theorem State.modGen_pending (g : Fin 5) (f : Gen → Gen) : (s.modGen g f).pending = s.pending := rfl

@[simp] theorem State.modArb_tickPhase (f : Arbiter → Arbiter) : (s.modArb f).tickPhase = s.tickPhase := rfl
@[simp] theorem State.modArb_elapsed (f : Arbiter → Arbiter) : (s.modArb f).elapsed = s.elapsed := rfl
@[simp] theorem State.modArb_clock (f : Arbiter → Arbiter) : (s.modArb f).clock = s.clock := rfl
@[simp] theorem State.modArb_gens (f : Arbiter → Arbiter) : (s.modArb f).gens = s.gens := rfl
@[simp] theorem State.modArb_arb (f : Arbiter → Arbiter) : (s.modArb f).arb = f s.arb := rfl
@[simp] theorem State.modArb_sched (f : Arbiter → Arbiter) : (s.modArb f).sched = s.sched := rfl
@[simp] theorem State.modArb_zones (f : Arbiter → Arbiter) : (s.modArb f).zones = s.zones := rfl
@[simp] theorem State.modArb_claims (f : Arbiter → Arbiter) : (s.modArb f).claims = s.claims := rfl
@[simp] theorem State.modArb_pages (f : Arbiter → Arbiter) : (s.modArb f).pages = s.pages := rfl
@[simp] theorem State.modArb_detectors (f : Arbiter → Arbiter) : (s.modArb f).detectors = s.detectors := rfl
@[simp] theorem State.modArb_za (f : Arbiter → Arbiter) : (s.modArb f).za = s.za := rfl
@[simp] theorem State.modArb_duckRate (f : Arbiter → Arbiter) : (s.modArb f).duckRate = s.duckRate := rfl
@[simp] theorem State.modArb_slotSamples (f : Arbiter → Arbiter) : (s.modArb f).slotSamples = s.slotSamples := rfl
@[simp] theorem State.modArb_meas (f : Arbiter → Arbiter) : (s.modArb f).meas = s.meas := rfl
@[simp] theorem State.modArb_testTimeout (f : Arbiter → Arbiter) : (s.modArb f).testTimeout = s.testTimeout := rfl
@[simp] theorem State.modArb_rooms (f : Arbiter → Arbiter) : (s.modArb f).rooms = s.rooms := rfl
@[simp] theorem State.modArb_polls (f : Arbiter → Arbiter) : (s.modArb f).polls = s.polls := rfl
@[simp] theorem State.modArb_roster (f : Arbiter → Arbiter) : (s.modArb f).roster = s.roster := rfl
@[simp] theorem State.modArb_drill (f : Arbiter → Arbiter) : (s.modArb f).drill = s.drill := rfl
@[simp] theorem State.modArb_inputs (f : Arbiter → Arbiter) : (s.modArb f).inputs = s.inputs := rfl
@[simp] theorem State.modArb_ports (f : Arbiter → Arbiter) : (s.modArb f).ports = s.ports := rfl
@[simp] theorem State.modArb_table (f : Arbiter → Arbiter) : (s.modArb f).table = s.table := rfl
@[simp] theorem State.modArb_disp (f : Arbiter → Arbiter) : (s.modArb f).disp = s.disp := rfl
@[simp] theorem State.modArb_mgmt (f : Arbiter → Arbiter) : (s.modArb f).mgmt = s.mgmt := rfl
@[simp] theorem State.modArb_sending (f : Arbiter → Arbiter) : (s.modArb f).sending = s.sending := rfl
@[simp] theorem State.modArb_sent (f : Arbiter → Arbiter) : (s.modArb f).sent = s.sent := rfl
@[simp] theorem State.modArb_contest (f : Arbiter → Arbiter) : (s.modArb f).contest = s.contest := rfl
@[simp] theorem State.modArb_clipDue (f : Arbiter → Arbiter) : (s.modArb f).clipDue = s.clipDue := rfl
@[simp] theorem State.modArb_choices (f : Arbiter → Arbiter) : (s.modArb f).choices = s.choices := rfl
@[simp] theorem State.modArb_due (f : Arbiter → Arbiter) : (s.modArb f).due = s.due := rfl
@[simp] theorem State.modArb_pending (f : Arbiter → Arbiter) : (s.modArb f).pending = s.pending := rfl

@[simp] theorem State.modSched_tickPhase (f : Sched → Sched) : (s.modSched f).tickPhase = s.tickPhase := rfl
@[simp] theorem State.modSched_elapsed (f : Sched → Sched) : (s.modSched f).elapsed = s.elapsed := rfl
@[simp] theorem State.modSched_clock (f : Sched → Sched) : (s.modSched f).clock = s.clock := rfl
@[simp] theorem State.modSched_gens (f : Sched → Sched) : (s.modSched f).gens = s.gens := rfl
@[simp] theorem State.modSched_arb (f : Sched → Sched) : (s.modSched f).arb = s.arb := rfl
@[simp] theorem State.modSched_sched (f : Sched → Sched) : (s.modSched f).sched = f s.sched := rfl
@[simp] theorem State.modSched_zones (f : Sched → Sched) : (s.modSched f).zones = s.zones := rfl
@[simp] theorem State.modSched_claims (f : Sched → Sched) : (s.modSched f).claims = s.claims := rfl
@[simp] theorem State.modSched_pages (f : Sched → Sched) : (s.modSched f).pages = s.pages := rfl
@[simp] theorem State.modSched_detectors (f : Sched → Sched) : (s.modSched f).detectors = s.detectors := rfl
@[simp] theorem State.modSched_za (f : Sched → Sched) : (s.modSched f).za = s.za := rfl
@[simp] theorem State.modSched_duckRate (f : Sched → Sched) : (s.modSched f).duckRate = s.duckRate := rfl
@[simp] theorem State.modSched_slotSamples (f : Sched → Sched) : (s.modSched f).slotSamples = s.slotSamples := rfl
@[simp] theorem State.modSched_meas (f : Sched → Sched) : (s.modSched f).meas = s.meas := rfl
@[simp] theorem State.modSched_testTimeout (f : Sched → Sched) : (s.modSched f).testTimeout = s.testTimeout := rfl
@[simp] theorem State.modSched_rooms (f : Sched → Sched) : (s.modSched f).rooms = s.rooms := rfl
@[simp] theorem State.modSched_polls (f : Sched → Sched) : (s.modSched f).polls = s.polls := rfl
@[simp] theorem State.modSched_roster (f : Sched → Sched) : (s.modSched f).roster = s.roster := rfl
@[simp] theorem State.modSched_drill (f : Sched → Sched) : (s.modSched f).drill = s.drill := rfl
@[simp] theorem State.modSched_inputs (f : Sched → Sched) : (s.modSched f).inputs = s.inputs := rfl
@[simp] theorem State.modSched_ports (f : Sched → Sched) : (s.modSched f).ports = s.ports := rfl
@[simp] theorem State.modSched_table (f : Sched → Sched) : (s.modSched f).table = s.table := rfl
@[simp] theorem State.modSched_disp (f : Sched → Sched) : (s.modSched f).disp = s.disp := rfl
@[simp] theorem State.modSched_mgmt (f : Sched → Sched) : (s.modSched f).mgmt = s.mgmt := rfl
@[simp] theorem State.modSched_sending (f : Sched → Sched) : (s.modSched f).sending = s.sending := rfl
@[simp] theorem State.modSched_sent (f : Sched → Sched) : (s.modSched f).sent = s.sent := rfl
@[simp] theorem State.modSched_contest (f : Sched → Sched) : (s.modSched f).contest = s.contest := rfl
@[simp] theorem State.modSched_clipDue (f : Sched → Sched) : (s.modSched f).clipDue = s.clipDue := rfl
@[simp] theorem State.modSched_choices (f : Sched → Sched) : (s.modSched f).choices = s.choices := rfl
@[simp] theorem State.modSched_due (f : Sched → Sched) : (s.modSched f).due = s.due := rfl
@[simp] theorem State.modSched_pending (f : Sched → Sched) : (s.modSched f).pending = s.pending := rfl

@[simp] theorem State.modZone_tickPhase (z : Fin 16) (f : Zone → Zone) : (s.modZone z f).tickPhase = s.tickPhase := rfl
@[simp] theorem State.modZone_elapsed (z : Fin 16) (f : Zone → Zone) : (s.modZone z f).elapsed = s.elapsed := rfl
@[simp] theorem State.modZone_clock (z : Fin 16) (f : Zone → Zone) : (s.modZone z f).clock = s.clock := rfl
@[simp] theorem State.modZone_gens (z : Fin 16) (f : Zone → Zone) : (s.modZone z f).gens = s.gens := rfl
@[simp] theorem State.modZone_arb (z : Fin 16) (f : Zone → Zone) : (s.modZone z f).arb = s.arb := rfl
@[simp] theorem State.modZone_sched (z : Fin 16) (f : Zone → Zone) : (s.modZone z f).sched = s.sched := rfl
@[simp] theorem State.modZone_zones (z : Fin 16) (f : Zone → Zone) : (s.modZone z f).zones = s.zones.set z (f s.zones[z]) := rfl
@[simp] theorem State.modZone_claims (z : Fin 16) (f : Zone → Zone) : (s.modZone z f).claims = s.claims := rfl
@[simp] theorem State.modZone_pages (z : Fin 16) (f : Zone → Zone) : (s.modZone z f).pages = s.pages := rfl
@[simp] theorem State.modZone_detectors (z : Fin 16) (f : Zone → Zone) : (s.modZone z f).detectors = s.detectors := rfl
@[simp] theorem State.modZone_za (z : Fin 16) (f : Zone → Zone) : (s.modZone z f).za = s.za := rfl
@[simp] theorem State.modZone_duckRate (z : Fin 16) (f : Zone → Zone) : (s.modZone z f).duckRate = s.duckRate := rfl
@[simp] theorem State.modZone_slotSamples (z : Fin 16) (f : Zone → Zone) : (s.modZone z f).slotSamples = s.slotSamples := rfl
@[simp] theorem State.modZone_meas (z : Fin 16) (f : Zone → Zone) : (s.modZone z f).meas = s.meas := rfl
@[simp] theorem State.modZone_testTimeout (z : Fin 16) (f : Zone → Zone) : (s.modZone z f).testTimeout = s.testTimeout := rfl
@[simp] theorem State.modZone_rooms (z : Fin 16) (f : Zone → Zone) : (s.modZone z f).rooms = s.rooms := rfl
@[simp] theorem State.modZone_polls (z : Fin 16) (f : Zone → Zone) : (s.modZone z f).polls = s.polls := rfl
@[simp] theorem State.modZone_roster (z : Fin 16) (f : Zone → Zone) : (s.modZone z f).roster = s.roster := rfl
@[simp] theorem State.modZone_drill (z : Fin 16) (f : Zone → Zone) : (s.modZone z f).drill = s.drill := rfl
@[simp] theorem State.modZone_inputs (z : Fin 16) (f : Zone → Zone) : (s.modZone z f).inputs = s.inputs := rfl
@[simp] theorem State.modZone_ports (z : Fin 16) (f : Zone → Zone) : (s.modZone z f).ports = s.ports := rfl
@[simp] theorem State.modZone_table (z : Fin 16) (f : Zone → Zone) : (s.modZone z f).table = s.table := rfl
@[simp] theorem State.modZone_disp (z : Fin 16) (f : Zone → Zone) : (s.modZone z f).disp = s.disp := rfl
@[simp] theorem State.modZone_mgmt (z : Fin 16) (f : Zone → Zone) : (s.modZone z f).mgmt = s.mgmt := rfl
@[simp] theorem State.modZone_sending (z : Fin 16) (f : Zone → Zone) : (s.modZone z f).sending = s.sending := rfl
@[simp] theorem State.modZone_sent (z : Fin 16) (f : Zone → Zone) : (s.modZone z f).sent = s.sent := rfl
@[simp] theorem State.modZone_contest (z : Fin 16) (f : Zone → Zone) : (s.modZone z f).contest = s.contest := rfl
@[simp] theorem State.modZone_clipDue (z : Fin 16) (f : Zone → Zone) : (s.modZone z f).clipDue = s.clipDue := rfl
@[simp] theorem State.modZone_choices (z : Fin 16) (f : Zone → Zone) : (s.modZone z f).choices = s.choices := rfl
@[simp] theorem State.modZone_due (z : Fin 16) (f : Zone → Zone) : (s.modZone z f).due = s.due := rfl
@[simp] theorem State.modZone_pending (z : Fin 16) (f : Zone → Zone) : (s.modZone z f).pending = s.pending := rfl

@[simp] theorem State.setClaim_tickPhase (c : Fin 13) (v : Option Claim) : (s.setClaim c v).tickPhase = s.tickPhase := rfl
@[simp] theorem State.setClaim_elapsed (c : Fin 13) (v : Option Claim) : (s.setClaim c v).elapsed = s.elapsed := rfl
@[simp] theorem State.setClaim_clock (c : Fin 13) (v : Option Claim) : (s.setClaim c v).clock = s.clock := rfl
@[simp] theorem State.setClaim_gens (c : Fin 13) (v : Option Claim) : (s.setClaim c v).gens = s.gens := rfl
@[simp] theorem State.setClaim_arb (c : Fin 13) (v : Option Claim) : (s.setClaim c v).arb = s.arb := rfl
@[simp] theorem State.setClaim_sched (c : Fin 13) (v : Option Claim) : (s.setClaim c v).sched = s.sched := rfl
@[simp] theorem State.setClaim_zones (c : Fin 13) (v : Option Claim) : (s.setClaim c v).zones = s.zones := rfl
@[simp] theorem State.setClaim_claims (c : Fin 13) (v : Option Claim) : (s.setClaim c v).claims = s.claims.set c v := rfl
@[simp] theorem State.setClaim_pages (c : Fin 13) (v : Option Claim) : (s.setClaim c v).pages = s.pages := rfl
@[simp] theorem State.setClaim_detectors (c : Fin 13) (v : Option Claim) : (s.setClaim c v).detectors = s.detectors := rfl
@[simp] theorem State.setClaim_za (c : Fin 13) (v : Option Claim) : (s.setClaim c v).za = s.za := rfl
@[simp] theorem State.setClaim_duckRate (c : Fin 13) (v : Option Claim) : (s.setClaim c v).duckRate = s.duckRate := rfl
@[simp] theorem State.setClaim_slotSamples (c : Fin 13) (v : Option Claim) : (s.setClaim c v).slotSamples = s.slotSamples := rfl
@[simp] theorem State.setClaim_meas (c : Fin 13) (v : Option Claim) : (s.setClaim c v).meas = s.meas := rfl
@[simp] theorem State.setClaim_testTimeout (c : Fin 13) (v : Option Claim) : (s.setClaim c v).testTimeout = s.testTimeout := rfl
@[simp] theorem State.setClaim_rooms (c : Fin 13) (v : Option Claim) : (s.setClaim c v).rooms = s.rooms := rfl
@[simp] theorem State.setClaim_polls (c : Fin 13) (v : Option Claim) : (s.setClaim c v).polls = s.polls := rfl
@[simp] theorem State.setClaim_roster (c : Fin 13) (v : Option Claim) : (s.setClaim c v).roster = s.roster := rfl
@[simp] theorem State.setClaim_drill (c : Fin 13) (v : Option Claim) : (s.setClaim c v).drill = s.drill := rfl
@[simp] theorem State.setClaim_inputs (c : Fin 13) (v : Option Claim) : (s.setClaim c v).inputs = s.inputs := rfl
@[simp] theorem State.setClaim_ports (c : Fin 13) (v : Option Claim) : (s.setClaim c v).ports = s.ports := rfl
@[simp] theorem State.setClaim_table (c : Fin 13) (v : Option Claim) : (s.setClaim c v).table = s.table := rfl
@[simp] theorem State.setClaim_disp (c : Fin 13) (v : Option Claim) : (s.setClaim c v).disp = s.disp := rfl
@[simp] theorem State.setClaim_mgmt (c : Fin 13) (v : Option Claim) : (s.setClaim c v).mgmt = s.mgmt := rfl
@[simp] theorem State.setClaim_sending (c : Fin 13) (v : Option Claim) : (s.setClaim c v).sending = s.sending := rfl
@[simp] theorem State.setClaim_sent (c : Fin 13) (v : Option Claim) : (s.setClaim c v).sent = s.sent := rfl
@[simp] theorem State.setClaim_contest (c : Fin 13) (v : Option Claim) : (s.setClaim c v).contest = s.contest := rfl
@[simp] theorem State.setClaim_clipDue (c : Fin 13) (v : Option Claim) : (s.setClaim c v).clipDue = s.clipDue := rfl
@[simp] theorem State.setClaim_choices (c : Fin 13) (v : Option Claim) : (s.setClaim c v).choices = s.choices := rfl
@[simp] theorem State.setClaim_due (c : Fin 13) (v : Option Claim) : (s.setClaim c v).due = s.due := rfl
@[simp] theorem State.setClaim_pending (c : Fin 13) (v : Option Claim) : (s.setClaim c v).pending = s.pending := rfl

@[simp] theorem State.modPage_tickPhase (p : Fin 8) (f : Page → Page) : (s.modPage p f).tickPhase = s.tickPhase := rfl
@[simp] theorem State.modPage_elapsed (p : Fin 8) (f : Page → Page) : (s.modPage p f).elapsed = s.elapsed := rfl
@[simp] theorem State.modPage_clock (p : Fin 8) (f : Page → Page) : (s.modPage p f).clock = s.clock := rfl
@[simp] theorem State.modPage_gens (p : Fin 8) (f : Page → Page) : (s.modPage p f).gens = s.gens := rfl
@[simp] theorem State.modPage_arb (p : Fin 8) (f : Page → Page) : (s.modPage p f).arb = s.arb := rfl
@[simp] theorem State.modPage_sched (p : Fin 8) (f : Page → Page) : (s.modPage p f).sched = s.sched := rfl
@[simp] theorem State.modPage_zones (p : Fin 8) (f : Page → Page) : (s.modPage p f).zones = s.zones := rfl
@[simp] theorem State.modPage_claims (p : Fin 8) (f : Page → Page) : (s.modPage p f).claims = s.claims := rfl
@[simp] theorem State.modPage_pages (p : Fin 8) (f : Page → Page) : (s.modPage p f).pages = s.pages.set p (f s.pages[p]) := rfl
@[simp] theorem State.modPage_detectors (p : Fin 8) (f : Page → Page) : (s.modPage p f).detectors = s.detectors := rfl
@[simp] theorem State.modPage_za (p : Fin 8) (f : Page → Page) : (s.modPage p f).za = s.za := rfl
@[simp] theorem State.modPage_duckRate (p : Fin 8) (f : Page → Page) : (s.modPage p f).duckRate = s.duckRate := rfl
@[simp] theorem State.modPage_slotSamples (p : Fin 8) (f : Page → Page) : (s.modPage p f).slotSamples = s.slotSamples := rfl
@[simp] theorem State.modPage_meas (p : Fin 8) (f : Page → Page) : (s.modPage p f).meas = s.meas := rfl
@[simp] theorem State.modPage_testTimeout (p : Fin 8) (f : Page → Page) : (s.modPage p f).testTimeout = s.testTimeout := rfl
@[simp] theorem State.modPage_rooms (p : Fin 8) (f : Page → Page) : (s.modPage p f).rooms = s.rooms := rfl
@[simp] theorem State.modPage_polls (p : Fin 8) (f : Page → Page) : (s.modPage p f).polls = s.polls := rfl
@[simp] theorem State.modPage_roster (p : Fin 8) (f : Page → Page) : (s.modPage p f).roster = s.roster := rfl
@[simp] theorem State.modPage_drill (p : Fin 8) (f : Page → Page) : (s.modPage p f).drill = s.drill := rfl
@[simp] theorem State.modPage_inputs (p : Fin 8) (f : Page → Page) : (s.modPage p f).inputs = s.inputs := rfl
@[simp] theorem State.modPage_ports (p : Fin 8) (f : Page → Page) : (s.modPage p f).ports = s.ports := rfl
@[simp] theorem State.modPage_table (p : Fin 8) (f : Page → Page) : (s.modPage p f).table = s.table := rfl
@[simp] theorem State.modPage_disp (p : Fin 8) (f : Page → Page) : (s.modPage p f).disp = s.disp := rfl
@[simp] theorem State.modPage_mgmt (p : Fin 8) (f : Page → Page) : (s.modPage p f).mgmt = s.mgmt := rfl
@[simp] theorem State.modPage_sending (p : Fin 8) (f : Page → Page) : (s.modPage p f).sending = s.sending := rfl
@[simp] theorem State.modPage_sent (p : Fin 8) (f : Page → Page) : (s.modPage p f).sent = s.sent := rfl
@[simp] theorem State.modPage_contest (p : Fin 8) (f : Page → Page) : (s.modPage p f).contest = s.contest := rfl
@[simp] theorem State.modPage_clipDue (p : Fin 8) (f : Page → Page) : (s.modPage p f).clipDue = s.clipDue := rfl
@[simp] theorem State.modPage_choices (p : Fin 8) (f : Page → Page) : (s.modPage p f).choices = s.choices := rfl
@[simp] theorem State.modPage_due (p : Fin 8) (f : Page → Page) : (s.modPage p f).due = s.due := rfl
@[simp] theorem State.modPage_pending (p : Fin 8) (f : Page → Page) : (s.modPage p f).pending = s.pending := rfl

@[simp] theorem State.modDetector_tickPhase (p : Fin 8) (f : Detector → Detector) : (s.modDetector p f).tickPhase = s.tickPhase := rfl
@[simp] theorem State.modDetector_elapsed (p : Fin 8) (f : Detector → Detector) : (s.modDetector p f).elapsed = s.elapsed := rfl
@[simp] theorem State.modDetector_clock (p : Fin 8) (f : Detector → Detector) : (s.modDetector p f).clock = s.clock := rfl
@[simp] theorem State.modDetector_gens (p : Fin 8) (f : Detector → Detector) : (s.modDetector p f).gens = s.gens := rfl
@[simp] theorem State.modDetector_arb (p : Fin 8) (f : Detector → Detector) : (s.modDetector p f).arb = s.arb := rfl
@[simp] theorem State.modDetector_sched (p : Fin 8) (f : Detector → Detector) : (s.modDetector p f).sched = s.sched := rfl
@[simp] theorem State.modDetector_zones (p : Fin 8) (f : Detector → Detector) : (s.modDetector p f).zones = s.zones := rfl
@[simp] theorem State.modDetector_claims (p : Fin 8) (f : Detector → Detector) : (s.modDetector p f).claims = s.claims := rfl
@[simp] theorem State.modDetector_pages (p : Fin 8) (f : Detector → Detector) : (s.modDetector p f).pages = s.pages := rfl
@[simp] theorem State.modDetector_detectors (p : Fin 8) (f : Detector → Detector) : (s.modDetector p f).detectors = s.detectors.set p (f s.detectors[p]) := rfl
@[simp] theorem State.modDetector_za (p : Fin 8) (f : Detector → Detector) : (s.modDetector p f).za = s.za := rfl
@[simp] theorem State.modDetector_duckRate (p : Fin 8) (f : Detector → Detector) : (s.modDetector p f).duckRate = s.duckRate := rfl
@[simp] theorem State.modDetector_slotSamples (p : Fin 8) (f : Detector → Detector) : (s.modDetector p f).slotSamples = s.slotSamples := rfl
@[simp] theorem State.modDetector_meas (p : Fin 8) (f : Detector → Detector) : (s.modDetector p f).meas = s.meas := rfl
@[simp] theorem State.modDetector_testTimeout (p : Fin 8) (f : Detector → Detector) : (s.modDetector p f).testTimeout = s.testTimeout := rfl
@[simp] theorem State.modDetector_rooms (p : Fin 8) (f : Detector → Detector) : (s.modDetector p f).rooms = s.rooms := rfl
@[simp] theorem State.modDetector_polls (p : Fin 8) (f : Detector → Detector) : (s.modDetector p f).polls = s.polls := rfl
@[simp] theorem State.modDetector_roster (p : Fin 8) (f : Detector → Detector) : (s.modDetector p f).roster = s.roster := rfl
@[simp] theorem State.modDetector_drill (p : Fin 8) (f : Detector → Detector) : (s.modDetector p f).drill = s.drill := rfl
@[simp] theorem State.modDetector_inputs (p : Fin 8) (f : Detector → Detector) : (s.modDetector p f).inputs = s.inputs := rfl
@[simp] theorem State.modDetector_ports (p : Fin 8) (f : Detector → Detector) : (s.modDetector p f).ports = s.ports := rfl
@[simp] theorem State.modDetector_table (p : Fin 8) (f : Detector → Detector) : (s.modDetector p f).table = s.table := rfl
@[simp] theorem State.modDetector_disp (p : Fin 8) (f : Detector → Detector) : (s.modDetector p f).disp = s.disp := rfl
@[simp] theorem State.modDetector_mgmt (p : Fin 8) (f : Detector → Detector) : (s.modDetector p f).mgmt = s.mgmt := rfl
@[simp] theorem State.modDetector_sending (p : Fin 8) (f : Detector → Detector) : (s.modDetector p f).sending = s.sending := rfl
@[simp] theorem State.modDetector_sent (p : Fin 8) (f : Detector → Detector) : (s.modDetector p f).sent = s.sent := rfl
@[simp] theorem State.modDetector_contest (p : Fin 8) (f : Detector → Detector) : (s.modDetector p f).contest = s.contest := rfl
@[simp] theorem State.modDetector_clipDue (p : Fin 8) (f : Detector → Detector) : (s.modDetector p f).clipDue = s.clipDue := rfl
@[simp] theorem State.modDetector_choices (p : Fin 8) (f : Detector → Detector) : (s.modDetector p f).choices = s.choices := rfl
@[simp] theorem State.modDetector_due (p : Fin 8) (f : Detector → Detector) : (s.modDetector p f).due = s.due := rfl
@[simp] theorem State.modDetector_pending (p : Fin 8) (f : Detector → Detector) : (s.modDetector p f).pending = s.pending := rfl

@[simp] theorem State.modZa_tickPhase (f : ZoneParams → ZoneParams) : (s.modZa f).tickPhase = s.tickPhase := rfl
@[simp] theorem State.modZa_elapsed (f : ZoneParams → ZoneParams) : (s.modZa f).elapsed = s.elapsed := rfl
@[simp] theorem State.modZa_clock (f : ZoneParams → ZoneParams) : (s.modZa f).clock = s.clock := rfl
@[simp] theorem State.modZa_gens (f : ZoneParams → ZoneParams) : (s.modZa f).gens = s.gens := rfl
@[simp] theorem State.modZa_arb (f : ZoneParams → ZoneParams) : (s.modZa f).arb = s.arb := rfl
@[simp] theorem State.modZa_sched (f : ZoneParams → ZoneParams) : (s.modZa f).sched = s.sched := rfl
@[simp] theorem State.modZa_zones (f : ZoneParams → ZoneParams) : (s.modZa f).zones = s.zones := rfl
@[simp] theorem State.modZa_claims (f : ZoneParams → ZoneParams) : (s.modZa f).claims = s.claims := rfl
@[simp] theorem State.modZa_pages (f : ZoneParams → ZoneParams) : (s.modZa f).pages = s.pages := rfl
@[simp] theorem State.modZa_detectors (f : ZoneParams → ZoneParams) : (s.modZa f).detectors = s.detectors := rfl
@[simp] theorem State.modZa_za (f : ZoneParams → ZoneParams) : (s.modZa f).za = f s.za := rfl
@[simp] theorem State.modZa_duckRate (f : ZoneParams → ZoneParams) : (s.modZa f).duckRate = s.duckRate := rfl
@[simp] theorem State.modZa_slotSamples (f : ZoneParams → ZoneParams) : (s.modZa f).slotSamples = s.slotSamples := rfl
@[simp] theorem State.modZa_meas (f : ZoneParams → ZoneParams) : (s.modZa f).meas = s.meas := rfl
@[simp] theorem State.modZa_testTimeout (f : ZoneParams → ZoneParams) : (s.modZa f).testTimeout = s.testTimeout := rfl
@[simp] theorem State.modZa_rooms (f : ZoneParams → ZoneParams) : (s.modZa f).rooms = s.rooms := rfl
@[simp] theorem State.modZa_polls (f : ZoneParams → ZoneParams) : (s.modZa f).polls = s.polls := rfl
@[simp] theorem State.modZa_roster (f : ZoneParams → ZoneParams) : (s.modZa f).roster = s.roster := rfl
@[simp] theorem State.modZa_drill (f : ZoneParams → ZoneParams) : (s.modZa f).drill = s.drill := rfl
@[simp] theorem State.modZa_inputs (f : ZoneParams → ZoneParams) : (s.modZa f).inputs = s.inputs := rfl
@[simp] theorem State.modZa_ports (f : ZoneParams → ZoneParams) : (s.modZa f).ports = s.ports := rfl
@[simp] theorem State.modZa_table (f : ZoneParams → ZoneParams) : (s.modZa f).table = s.table := rfl
@[simp] theorem State.modZa_disp (f : ZoneParams → ZoneParams) : (s.modZa f).disp = s.disp := rfl
@[simp] theorem State.modZa_mgmt (f : ZoneParams → ZoneParams) : (s.modZa f).mgmt = s.mgmt := rfl
@[simp] theorem State.modZa_sending (f : ZoneParams → ZoneParams) : (s.modZa f).sending = s.sending := rfl
@[simp] theorem State.modZa_sent (f : ZoneParams → ZoneParams) : (s.modZa f).sent = s.sent := rfl
@[simp] theorem State.modZa_contest (f : ZoneParams → ZoneParams) : (s.modZa f).contest = s.contest := rfl
@[simp] theorem State.modZa_clipDue (f : ZoneParams → ZoneParams) : (s.modZa f).clipDue = s.clipDue := rfl
@[simp] theorem State.modZa_choices (f : ZoneParams → ZoneParams) : (s.modZa f).choices = s.choices := rfl
@[simp] theorem State.modZa_due (f : ZoneParams → ZoneParams) : (s.modZa f).due = s.due := rfl
@[simp] theorem State.modZa_pending (f : ZoneParams → ZoneParams) : (s.modZa f).pending = s.pending := rfl

@[simp] theorem State.setDuckRate_tickPhase (n : Nat) : (s.setDuckRate n).tickPhase = s.tickPhase := rfl
@[simp] theorem State.setDuckRate_elapsed (n : Nat) : (s.setDuckRate n).elapsed = s.elapsed := rfl
@[simp] theorem State.setDuckRate_clock (n : Nat) : (s.setDuckRate n).clock = s.clock := rfl
@[simp] theorem State.setDuckRate_gens (n : Nat) : (s.setDuckRate n).gens = s.gens := rfl
@[simp] theorem State.setDuckRate_arb (n : Nat) : (s.setDuckRate n).arb = s.arb := rfl
@[simp] theorem State.setDuckRate_sched (n : Nat) : (s.setDuckRate n).sched = s.sched := rfl
@[simp] theorem State.setDuckRate_zones (n : Nat) : (s.setDuckRate n).zones = s.zones := rfl
@[simp] theorem State.setDuckRate_claims (n : Nat) : (s.setDuckRate n).claims = s.claims := rfl
@[simp] theorem State.setDuckRate_pages (n : Nat) : (s.setDuckRate n).pages = s.pages := rfl
@[simp] theorem State.setDuckRate_detectors (n : Nat) : (s.setDuckRate n).detectors = s.detectors := rfl
@[simp] theorem State.setDuckRate_za (n : Nat) : (s.setDuckRate n).za = s.za := rfl
@[simp] theorem State.setDuckRate_duckRate (n : Nat) : (s.setDuckRate n).duckRate = n := rfl
@[simp] theorem State.setDuckRate_slotSamples (n : Nat) : (s.setDuckRate n).slotSamples = s.slotSamples := rfl
@[simp] theorem State.setDuckRate_meas (n : Nat) : (s.setDuckRate n).meas = s.meas := rfl
@[simp] theorem State.setDuckRate_testTimeout (n : Nat) : (s.setDuckRate n).testTimeout = s.testTimeout := rfl
@[simp] theorem State.setDuckRate_rooms (n : Nat) : (s.setDuckRate n).rooms = s.rooms := rfl
@[simp] theorem State.setDuckRate_polls (n : Nat) : (s.setDuckRate n).polls = s.polls := rfl
@[simp] theorem State.setDuckRate_roster (n : Nat) : (s.setDuckRate n).roster = s.roster := rfl
@[simp] theorem State.setDuckRate_drill (n : Nat) : (s.setDuckRate n).drill = s.drill := rfl
@[simp] theorem State.setDuckRate_inputs (n : Nat) : (s.setDuckRate n).inputs = s.inputs := rfl
@[simp] theorem State.setDuckRate_ports (n : Nat) : (s.setDuckRate n).ports = s.ports := rfl
@[simp] theorem State.setDuckRate_table (n : Nat) : (s.setDuckRate n).table = s.table := rfl
@[simp] theorem State.setDuckRate_disp (n : Nat) : (s.setDuckRate n).disp = s.disp := rfl
@[simp] theorem State.setDuckRate_mgmt (n : Nat) : (s.setDuckRate n).mgmt = s.mgmt := rfl
@[simp] theorem State.setDuckRate_sending (n : Nat) : (s.setDuckRate n).sending = s.sending := rfl
@[simp] theorem State.setDuckRate_sent (n : Nat) : (s.setDuckRate n).sent = s.sent := rfl
@[simp] theorem State.setDuckRate_contest (n : Nat) : (s.setDuckRate n).contest = s.contest := rfl
@[simp] theorem State.setDuckRate_clipDue (n : Nat) : (s.setDuckRate n).clipDue = s.clipDue := rfl
@[simp] theorem State.setDuckRate_choices (n : Nat) : (s.setDuckRate n).choices = s.choices := rfl
@[simp] theorem State.setDuckRate_due (n : Nat) : (s.setDuckRate n).due = s.due := rfl
@[simp] theorem State.setDuckRate_pending (n : Nat) : (s.setDuckRate n).pending = s.pending := rfl

@[simp] theorem State.setSlotSamples_tickPhase (v : Vector Int 16) : (s.setSlotSamples v).tickPhase = s.tickPhase := rfl
@[simp] theorem State.setSlotSamples_elapsed (v : Vector Int 16) : (s.setSlotSamples v).elapsed = s.elapsed := rfl
@[simp] theorem State.setSlotSamples_clock (v : Vector Int 16) : (s.setSlotSamples v).clock = s.clock := rfl
@[simp] theorem State.setSlotSamples_gens (v : Vector Int 16) : (s.setSlotSamples v).gens = s.gens := rfl
@[simp] theorem State.setSlotSamples_arb (v : Vector Int 16) : (s.setSlotSamples v).arb = s.arb := rfl
@[simp] theorem State.setSlotSamples_sched (v : Vector Int 16) : (s.setSlotSamples v).sched = s.sched := rfl
@[simp] theorem State.setSlotSamples_zones (v : Vector Int 16) : (s.setSlotSamples v).zones = s.zones := rfl
@[simp] theorem State.setSlotSamples_claims (v : Vector Int 16) : (s.setSlotSamples v).claims = s.claims := rfl
@[simp] theorem State.setSlotSamples_pages (v : Vector Int 16) : (s.setSlotSamples v).pages = s.pages := rfl
@[simp] theorem State.setSlotSamples_detectors (v : Vector Int 16) : (s.setSlotSamples v).detectors = s.detectors := rfl
@[simp] theorem State.setSlotSamples_za (v : Vector Int 16) : (s.setSlotSamples v).za = s.za := rfl
@[simp] theorem State.setSlotSamples_duckRate (v : Vector Int 16) : (s.setSlotSamples v).duckRate = s.duckRate := rfl
@[simp] theorem State.setSlotSamples_slotSamples (v : Vector Int 16) : (s.setSlotSamples v).slotSamples = v := rfl
@[simp] theorem State.setSlotSamples_meas (v : Vector Int 16) : (s.setSlotSamples v).meas = s.meas := rfl
@[simp] theorem State.setSlotSamples_testTimeout (v : Vector Int 16) : (s.setSlotSamples v).testTimeout = s.testTimeout := rfl
@[simp] theorem State.setSlotSamples_rooms (v : Vector Int 16) : (s.setSlotSamples v).rooms = s.rooms := rfl
@[simp] theorem State.setSlotSamples_polls (v : Vector Int 16) : (s.setSlotSamples v).polls = s.polls := rfl
@[simp] theorem State.setSlotSamples_roster (v : Vector Int 16) : (s.setSlotSamples v).roster = s.roster := rfl
@[simp] theorem State.setSlotSamples_drill (v : Vector Int 16) : (s.setSlotSamples v).drill = s.drill := rfl
@[simp] theorem State.setSlotSamples_inputs (v : Vector Int 16) : (s.setSlotSamples v).inputs = s.inputs := rfl
@[simp] theorem State.setSlotSamples_ports (v : Vector Int 16) : (s.setSlotSamples v).ports = s.ports := rfl
@[simp] theorem State.setSlotSamples_table (v : Vector Int 16) : (s.setSlotSamples v).table = s.table := rfl
@[simp] theorem State.setSlotSamples_disp (v : Vector Int 16) : (s.setSlotSamples v).disp = s.disp := rfl
@[simp] theorem State.setSlotSamples_mgmt (v : Vector Int 16) : (s.setSlotSamples v).mgmt = s.mgmt := rfl
@[simp] theorem State.setSlotSamples_sending (v : Vector Int 16) : (s.setSlotSamples v).sending = s.sending := rfl
@[simp] theorem State.setSlotSamples_sent (v : Vector Int 16) : (s.setSlotSamples v).sent = s.sent := rfl
@[simp] theorem State.setSlotSamples_contest (v : Vector Int 16) : (s.setSlotSamples v).contest = s.contest := rfl
@[simp] theorem State.setSlotSamples_clipDue (v : Vector Int 16) : (s.setSlotSamples v).clipDue = s.clipDue := rfl
@[simp] theorem State.setSlotSamples_choices (v : Vector Int 16) : (s.setSlotSamples v).choices = s.choices := rfl
@[simp] theorem State.setSlotSamples_due (v : Vector Int 16) : (s.setSlotSamples v).due = s.due := rfl
@[simp] theorem State.setSlotSamples_pending (v : Vector Int 16) : (s.setSlotSamples v).pending = s.pending := rfl

@[simp] theorem State.modMeas_tickPhase (l : Fin 4) (f : MeasSlot → MeasSlot) : (s.modMeas l f).tickPhase = s.tickPhase := rfl
@[simp] theorem State.modMeas_elapsed (l : Fin 4) (f : MeasSlot → MeasSlot) : (s.modMeas l f).elapsed = s.elapsed := rfl
@[simp] theorem State.modMeas_clock (l : Fin 4) (f : MeasSlot → MeasSlot) : (s.modMeas l f).clock = s.clock := rfl
@[simp] theorem State.modMeas_gens (l : Fin 4) (f : MeasSlot → MeasSlot) : (s.modMeas l f).gens = s.gens := rfl
@[simp] theorem State.modMeas_arb (l : Fin 4) (f : MeasSlot → MeasSlot) : (s.modMeas l f).arb = s.arb := rfl
@[simp] theorem State.modMeas_sched (l : Fin 4) (f : MeasSlot → MeasSlot) : (s.modMeas l f).sched = s.sched := rfl
@[simp] theorem State.modMeas_zones (l : Fin 4) (f : MeasSlot → MeasSlot) : (s.modMeas l f).zones = s.zones := rfl
@[simp] theorem State.modMeas_claims (l : Fin 4) (f : MeasSlot → MeasSlot) : (s.modMeas l f).claims = s.claims := rfl
@[simp] theorem State.modMeas_pages (l : Fin 4) (f : MeasSlot → MeasSlot) : (s.modMeas l f).pages = s.pages := rfl
@[simp] theorem State.modMeas_detectors (l : Fin 4) (f : MeasSlot → MeasSlot) : (s.modMeas l f).detectors = s.detectors := rfl
@[simp] theorem State.modMeas_za (l : Fin 4) (f : MeasSlot → MeasSlot) : (s.modMeas l f).za = s.za := rfl
@[simp] theorem State.modMeas_duckRate (l : Fin 4) (f : MeasSlot → MeasSlot) : (s.modMeas l f).duckRate = s.duckRate := rfl
@[simp] theorem State.modMeas_slotSamples (l : Fin 4) (f : MeasSlot → MeasSlot) : (s.modMeas l f).slotSamples = s.slotSamples := rfl
@[simp] theorem State.modMeas_meas (l : Fin 4) (f : MeasSlot → MeasSlot) : (s.modMeas l f).meas = s.meas.set l (f s.meas[l]) := rfl
@[simp] theorem State.modMeas_testTimeout (l : Fin 4) (f : MeasSlot → MeasSlot) : (s.modMeas l f).testTimeout = s.testTimeout := rfl
@[simp] theorem State.modMeas_rooms (l : Fin 4) (f : MeasSlot → MeasSlot) : (s.modMeas l f).rooms = s.rooms := rfl
@[simp] theorem State.modMeas_polls (l : Fin 4) (f : MeasSlot → MeasSlot) : (s.modMeas l f).polls = s.polls := rfl
@[simp] theorem State.modMeas_roster (l : Fin 4) (f : MeasSlot → MeasSlot) : (s.modMeas l f).roster = s.roster := rfl
@[simp] theorem State.modMeas_drill (l : Fin 4) (f : MeasSlot → MeasSlot) : (s.modMeas l f).drill = s.drill := rfl
@[simp] theorem State.modMeas_inputs (l : Fin 4) (f : MeasSlot → MeasSlot) : (s.modMeas l f).inputs = s.inputs := rfl
@[simp] theorem State.modMeas_ports (l : Fin 4) (f : MeasSlot → MeasSlot) : (s.modMeas l f).ports = s.ports := rfl
@[simp] theorem State.modMeas_table (l : Fin 4) (f : MeasSlot → MeasSlot) : (s.modMeas l f).table = s.table := rfl
@[simp] theorem State.modMeas_disp (l : Fin 4) (f : MeasSlot → MeasSlot) : (s.modMeas l f).disp = s.disp := rfl
@[simp] theorem State.modMeas_mgmt (l : Fin 4) (f : MeasSlot → MeasSlot) : (s.modMeas l f).mgmt = s.mgmt := rfl
@[simp] theorem State.modMeas_sending (l : Fin 4) (f : MeasSlot → MeasSlot) : (s.modMeas l f).sending = s.sending := rfl
@[simp] theorem State.modMeas_sent (l : Fin 4) (f : MeasSlot → MeasSlot) : (s.modMeas l f).sent = s.sent := rfl
@[simp] theorem State.modMeas_contest (l : Fin 4) (f : MeasSlot → MeasSlot) : (s.modMeas l f).contest = s.contest := rfl
@[simp] theorem State.modMeas_clipDue (l : Fin 4) (f : MeasSlot → MeasSlot) : (s.modMeas l f).clipDue = s.clipDue := rfl
@[simp] theorem State.modMeas_choices (l : Fin 4) (f : MeasSlot → MeasSlot) : (s.modMeas l f).choices = s.choices := rfl
@[simp] theorem State.modMeas_due (l : Fin 4) (f : MeasSlot → MeasSlot) : (s.modMeas l f).due = s.due := rfl
@[simp] theorem State.modMeas_pending (l : Fin 4) (f : MeasSlot → MeasSlot) : (s.modMeas l f).pending = s.pending := rfl

@[simp] theorem State.setTestTimeout_tickPhase (n : Nat) : (s.setTestTimeout n).tickPhase = s.tickPhase := rfl
@[simp] theorem State.setTestTimeout_elapsed (n : Nat) : (s.setTestTimeout n).elapsed = s.elapsed := rfl
@[simp] theorem State.setTestTimeout_clock (n : Nat) : (s.setTestTimeout n).clock = s.clock := rfl
@[simp] theorem State.setTestTimeout_gens (n : Nat) : (s.setTestTimeout n).gens = s.gens := rfl
@[simp] theorem State.setTestTimeout_arb (n : Nat) : (s.setTestTimeout n).arb = s.arb := rfl
@[simp] theorem State.setTestTimeout_sched (n : Nat) : (s.setTestTimeout n).sched = s.sched := rfl
@[simp] theorem State.setTestTimeout_zones (n : Nat) : (s.setTestTimeout n).zones = s.zones := rfl
@[simp] theorem State.setTestTimeout_claims (n : Nat) : (s.setTestTimeout n).claims = s.claims := rfl
@[simp] theorem State.setTestTimeout_pages (n : Nat) : (s.setTestTimeout n).pages = s.pages := rfl
@[simp] theorem State.setTestTimeout_detectors (n : Nat) : (s.setTestTimeout n).detectors = s.detectors := rfl
@[simp] theorem State.setTestTimeout_za (n : Nat) : (s.setTestTimeout n).za = s.za := rfl
@[simp] theorem State.setTestTimeout_duckRate (n : Nat) : (s.setTestTimeout n).duckRate = s.duckRate := rfl
@[simp] theorem State.setTestTimeout_slotSamples (n : Nat) : (s.setTestTimeout n).slotSamples = s.slotSamples := rfl
@[simp] theorem State.setTestTimeout_meas (n : Nat) : (s.setTestTimeout n).meas = s.meas := rfl
@[simp] theorem State.setTestTimeout_testTimeout (n : Nat) : (s.setTestTimeout n).testTimeout = n := rfl
@[simp] theorem State.setTestTimeout_rooms (n : Nat) : (s.setTestTimeout n).rooms = s.rooms := rfl
@[simp] theorem State.setTestTimeout_polls (n : Nat) : (s.setTestTimeout n).polls = s.polls := rfl
@[simp] theorem State.setTestTimeout_roster (n : Nat) : (s.setTestTimeout n).roster = s.roster := rfl
@[simp] theorem State.setTestTimeout_drill (n : Nat) : (s.setTestTimeout n).drill = s.drill := rfl
@[simp] theorem State.setTestTimeout_inputs (n : Nat) : (s.setTestTimeout n).inputs = s.inputs := rfl
@[simp] theorem State.setTestTimeout_ports (n : Nat) : (s.setTestTimeout n).ports = s.ports := rfl
@[simp] theorem State.setTestTimeout_table (n : Nat) : (s.setTestTimeout n).table = s.table := rfl
@[simp] theorem State.setTestTimeout_disp (n : Nat) : (s.setTestTimeout n).disp = s.disp := rfl
@[simp] theorem State.setTestTimeout_mgmt (n : Nat) : (s.setTestTimeout n).mgmt = s.mgmt := rfl
@[simp] theorem State.setTestTimeout_sending (n : Nat) : (s.setTestTimeout n).sending = s.sending := rfl
@[simp] theorem State.setTestTimeout_sent (n : Nat) : (s.setTestTimeout n).sent = s.sent := rfl
@[simp] theorem State.setTestTimeout_contest (n : Nat) : (s.setTestTimeout n).contest = s.contest := rfl
@[simp] theorem State.setTestTimeout_clipDue (n : Nat) : (s.setTestTimeout n).clipDue = s.clipDue := rfl
@[simp] theorem State.setTestTimeout_choices (n : Nat) : (s.setTestTimeout n).choices = s.choices := rfl
@[simp] theorem State.setTestTimeout_due (n : Nat) : (s.setTestTimeout n).due = s.due := rfl
@[simp] theorem State.setTestTimeout_pending (n : Nat) : (s.setTestTimeout n).pending = s.pending := rfl

@[simp] theorem State.modRoom_tickPhase (r : Fin 128) (f : Room → Room) : (s.modRoom r f).tickPhase = s.tickPhase := rfl
@[simp] theorem State.modRoom_elapsed (r : Fin 128) (f : Room → Room) : (s.modRoom r f).elapsed = s.elapsed := rfl
@[simp] theorem State.modRoom_clock (r : Fin 128) (f : Room → Room) : (s.modRoom r f).clock = s.clock := rfl
@[simp] theorem State.modRoom_gens (r : Fin 128) (f : Room → Room) : (s.modRoom r f).gens = s.gens := rfl
@[simp] theorem State.modRoom_arb (r : Fin 128) (f : Room → Room) : (s.modRoom r f).arb = s.arb := rfl
@[simp] theorem State.modRoom_sched (r : Fin 128) (f : Room → Room) : (s.modRoom r f).sched = s.sched := rfl
@[simp] theorem State.modRoom_zones (r : Fin 128) (f : Room → Room) : (s.modRoom r f).zones = s.zones := rfl
@[simp] theorem State.modRoom_claims (r : Fin 128) (f : Room → Room) : (s.modRoom r f).claims = s.claims := rfl
@[simp] theorem State.modRoom_pages (r : Fin 128) (f : Room → Room) : (s.modRoom r f).pages = s.pages := rfl
@[simp] theorem State.modRoom_detectors (r : Fin 128) (f : Room → Room) : (s.modRoom r f).detectors = s.detectors := rfl
@[simp] theorem State.modRoom_za (r : Fin 128) (f : Room → Room) : (s.modRoom r f).za = s.za := rfl
@[simp] theorem State.modRoom_duckRate (r : Fin 128) (f : Room → Room) : (s.modRoom r f).duckRate = s.duckRate := rfl
@[simp] theorem State.modRoom_slotSamples (r : Fin 128) (f : Room → Room) : (s.modRoom r f).slotSamples = s.slotSamples := rfl
@[simp] theorem State.modRoom_meas (r : Fin 128) (f : Room → Room) : (s.modRoom r f).meas = s.meas := rfl
@[simp] theorem State.modRoom_testTimeout (r : Fin 128) (f : Room → Room) : (s.modRoom r f).testTimeout = s.testTimeout := rfl
@[simp] theorem State.modRoom_rooms (r : Fin 128) (f : Room → Room) : (s.modRoom r f).rooms = s.rooms.set r (f s.rooms[r]) := rfl
@[simp] theorem State.modRoom_polls (r : Fin 128) (f : Room → Room) : (s.modRoom r f).polls = s.polls := rfl
@[simp] theorem State.modRoom_roster (r : Fin 128) (f : Room → Room) : (s.modRoom r f).roster = s.roster := rfl
@[simp] theorem State.modRoom_drill (r : Fin 128) (f : Room → Room) : (s.modRoom r f).drill = s.drill := rfl
@[simp] theorem State.modRoom_inputs (r : Fin 128) (f : Room → Room) : (s.modRoom r f).inputs = s.inputs := rfl
@[simp] theorem State.modRoom_ports (r : Fin 128) (f : Room → Room) : (s.modRoom r f).ports = s.ports := rfl
@[simp] theorem State.modRoom_table (r : Fin 128) (f : Room → Room) : (s.modRoom r f).table = s.table := rfl
@[simp] theorem State.modRoom_disp (r : Fin 128) (f : Room → Room) : (s.modRoom r f).disp = s.disp := rfl
@[simp] theorem State.modRoom_mgmt (r : Fin 128) (f : Room → Room) : (s.modRoom r f).mgmt = s.mgmt := rfl
@[simp] theorem State.modRoom_sending (r : Fin 128) (f : Room → Room) : (s.modRoom r f).sending = s.sending := rfl
@[simp] theorem State.modRoom_sent (r : Fin 128) (f : Room → Room) : (s.modRoom r f).sent = s.sent := rfl
@[simp] theorem State.modRoom_contest (r : Fin 128) (f : Room → Room) : (s.modRoom r f).contest = s.contest := rfl
@[simp] theorem State.modRoom_clipDue (r : Fin 128) (f : Room → Room) : (s.modRoom r f).clipDue = s.clipDue := rfl
@[simp] theorem State.modRoom_choices (r : Fin 128) (f : Room → Room) : (s.modRoom r f).choices = s.choices := rfl
@[simp] theorem State.modRoom_due (r : Fin 128) (f : Room → Room) : (s.modRoom r f).due = s.due := rfl
@[simp] theorem State.modRoom_pending (r : Fin 128) (f : Room → Room) : (s.modRoom r f).pending = s.pending := rfl

@[simp] theorem State.modPoll_tickPhase (l : Fin 4) (f : LegPoll → LegPoll) : (s.modPoll l f).tickPhase = s.tickPhase := rfl
@[simp] theorem State.modPoll_elapsed (l : Fin 4) (f : LegPoll → LegPoll) : (s.modPoll l f).elapsed = s.elapsed := rfl
@[simp] theorem State.modPoll_clock (l : Fin 4) (f : LegPoll → LegPoll) : (s.modPoll l f).clock = s.clock := rfl
@[simp] theorem State.modPoll_gens (l : Fin 4) (f : LegPoll → LegPoll) : (s.modPoll l f).gens = s.gens := rfl
@[simp] theorem State.modPoll_arb (l : Fin 4) (f : LegPoll → LegPoll) : (s.modPoll l f).arb = s.arb := rfl
@[simp] theorem State.modPoll_sched (l : Fin 4) (f : LegPoll → LegPoll) : (s.modPoll l f).sched = s.sched := rfl
@[simp] theorem State.modPoll_zones (l : Fin 4) (f : LegPoll → LegPoll) : (s.modPoll l f).zones = s.zones := rfl
@[simp] theorem State.modPoll_claims (l : Fin 4) (f : LegPoll → LegPoll) : (s.modPoll l f).claims = s.claims := rfl
@[simp] theorem State.modPoll_pages (l : Fin 4) (f : LegPoll → LegPoll) : (s.modPoll l f).pages = s.pages := rfl
@[simp] theorem State.modPoll_detectors (l : Fin 4) (f : LegPoll → LegPoll) : (s.modPoll l f).detectors = s.detectors := rfl
@[simp] theorem State.modPoll_za (l : Fin 4) (f : LegPoll → LegPoll) : (s.modPoll l f).za = s.za := rfl
@[simp] theorem State.modPoll_duckRate (l : Fin 4) (f : LegPoll → LegPoll) : (s.modPoll l f).duckRate = s.duckRate := rfl
@[simp] theorem State.modPoll_slotSamples (l : Fin 4) (f : LegPoll → LegPoll) : (s.modPoll l f).slotSamples = s.slotSamples := rfl
@[simp] theorem State.modPoll_meas (l : Fin 4) (f : LegPoll → LegPoll) : (s.modPoll l f).meas = s.meas := rfl
@[simp] theorem State.modPoll_testTimeout (l : Fin 4) (f : LegPoll → LegPoll) : (s.modPoll l f).testTimeout = s.testTimeout := rfl
@[simp] theorem State.modPoll_rooms (l : Fin 4) (f : LegPoll → LegPoll) : (s.modPoll l f).rooms = s.rooms := rfl
@[simp] theorem State.modPoll_polls (l : Fin 4) (f : LegPoll → LegPoll) : (s.modPoll l f).polls = s.polls.set l (f s.polls[l]) := rfl
@[simp] theorem State.modPoll_roster (l : Fin 4) (f : LegPoll → LegPoll) : (s.modPoll l f).roster = s.roster := rfl
@[simp] theorem State.modPoll_drill (l : Fin 4) (f : LegPoll → LegPoll) : (s.modPoll l f).drill = s.drill := rfl
@[simp] theorem State.modPoll_inputs (l : Fin 4) (f : LegPoll → LegPoll) : (s.modPoll l f).inputs = s.inputs := rfl
@[simp] theorem State.modPoll_ports (l : Fin 4) (f : LegPoll → LegPoll) : (s.modPoll l f).ports = s.ports := rfl
@[simp] theorem State.modPoll_table (l : Fin 4) (f : LegPoll → LegPoll) : (s.modPoll l f).table = s.table := rfl
@[simp] theorem State.modPoll_disp (l : Fin 4) (f : LegPoll → LegPoll) : (s.modPoll l f).disp = s.disp := rfl
@[simp] theorem State.modPoll_mgmt (l : Fin 4) (f : LegPoll → LegPoll) : (s.modPoll l f).mgmt = s.mgmt := rfl
@[simp] theorem State.modPoll_sending (l : Fin 4) (f : LegPoll → LegPoll) : (s.modPoll l f).sending = s.sending := rfl
@[simp] theorem State.modPoll_sent (l : Fin 4) (f : LegPoll → LegPoll) : (s.modPoll l f).sent = s.sent := rfl
@[simp] theorem State.modPoll_contest (l : Fin 4) (f : LegPoll → LegPoll) : (s.modPoll l f).contest = s.contest := rfl
@[simp] theorem State.modPoll_clipDue (l : Fin 4) (f : LegPoll → LegPoll) : (s.modPoll l f).clipDue = s.clipDue := rfl
@[simp] theorem State.modPoll_choices (l : Fin 4) (f : LegPoll → LegPoll) : (s.modPoll l f).choices = s.choices := rfl
@[simp] theorem State.modPoll_due (l : Fin 4) (f : LegPoll → LegPoll) : (s.modPoll l f).due = s.due := rfl
@[simp] theorem State.modPoll_pending (l : Fin 4) (f : LegPoll → LegPoll) : (s.modPoll l f).pending = s.pending := rfl

@[simp] theorem State.modRoster_tickPhase (f : RosterParams → RosterParams) : (s.modRoster f).tickPhase = s.tickPhase := rfl
@[simp] theorem State.modRoster_elapsed (f : RosterParams → RosterParams) : (s.modRoster f).elapsed = s.elapsed := rfl
@[simp] theorem State.modRoster_clock (f : RosterParams → RosterParams) : (s.modRoster f).clock = s.clock := rfl
@[simp] theorem State.modRoster_gens (f : RosterParams → RosterParams) : (s.modRoster f).gens = s.gens := rfl
@[simp] theorem State.modRoster_arb (f : RosterParams → RosterParams) : (s.modRoster f).arb = s.arb := rfl
@[simp] theorem State.modRoster_sched (f : RosterParams → RosterParams) : (s.modRoster f).sched = s.sched := rfl
@[simp] theorem State.modRoster_zones (f : RosterParams → RosterParams) : (s.modRoster f).zones = s.zones := rfl
@[simp] theorem State.modRoster_claims (f : RosterParams → RosterParams) : (s.modRoster f).claims = s.claims := rfl
@[simp] theorem State.modRoster_pages (f : RosterParams → RosterParams) : (s.modRoster f).pages = s.pages := rfl
@[simp] theorem State.modRoster_detectors (f : RosterParams → RosterParams) : (s.modRoster f).detectors = s.detectors := rfl
@[simp] theorem State.modRoster_za (f : RosterParams → RosterParams) : (s.modRoster f).za = s.za := rfl
@[simp] theorem State.modRoster_duckRate (f : RosterParams → RosterParams) : (s.modRoster f).duckRate = s.duckRate := rfl
@[simp] theorem State.modRoster_slotSamples (f : RosterParams → RosterParams) : (s.modRoster f).slotSamples = s.slotSamples := rfl
@[simp] theorem State.modRoster_meas (f : RosterParams → RosterParams) : (s.modRoster f).meas = s.meas := rfl
@[simp] theorem State.modRoster_testTimeout (f : RosterParams → RosterParams) : (s.modRoster f).testTimeout = s.testTimeout := rfl
@[simp] theorem State.modRoster_rooms (f : RosterParams → RosterParams) : (s.modRoster f).rooms = s.rooms := rfl
@[simp] theorem State.modRoster_polls (f : RosterParams → RosterParams) : (s.modRoster f).polls = s.polls := rfl
@[simp] theorem State.modRoster_roster (f : RosterParams → RosterParams) : (s.modRoster f).roster = f s.roster := rfl
@[simp] theorem State.modRoster_drill (f : RosterParams → RosterParams) : (s.modRoster f).drill = s.drill := rfl
@[simp] theorem State.modRoster_inputs (f : RosterParams → RosterParams) : (s.modRoster f).inputs = s.inputs := rfl
@[simp] theorem State.modRoster_ports (f : RosterParams → RosterParams) : (s.modRoster f).ports = s.ports := rfl
@[simp] theorem State.modRoster_table (f : RosterParams → RosterParams) : (s.modRoster f).table = s.table := rfl
@[simp] theorem State.modRoster_disp (f : RosterParams → RosterParams) : (s.modRoster f).disp = s.disp := rfl
@[simp] theorem State.modRoster_mgmt (f : RosterParams → RosterParams) : (s.modRoster f).mgmt = s.mgmt := rfl
@[simp] theorem State.modRoster_sending (f : RosterParams → RosterParams) : (s.modRoster f).sending = s.sending := rfl
@[simp] theorem State.modRoster_sent (f : RosterParams → RosterParams) : (s.modRoster f).sent = s.sent := rfl
@[simp] theorem State.modRoster_contest (f : RosterParams → RosterParams) : (s.modRoster f).contest = s.contest := rfl
@[simp] theorem State.modRoster_clipDue (f : RosterParams → RosterParams) : (s.modRoster f).clipDue = s.clipDue := rfl
@[simp] theorem State.modRoster_choices (f : RosterParams → RosterParams) : (s.modRoster f).choices = s.choices := rfl
@[simp] theorem State.modRoster_due (f : RosterParams → RosterParams) : (s.modRoster f).due = s.due := rfl
@[simp] theorem State.modRoster_pending (f : RosterParams → RosterParams) : (s.modRoster f).pending = s.pending := rfl

@[simp] theorem State.modDrill_tickPhase (f : Drill → Drill) : (s.modDrill f).tickPhase = s.tickPhase := rfl
@[simp] theorem State.modDrill_elapsed (f : Drill → Drill) : (s.modDrill f).elapsed = s.elapsed := rfl
@[simp] theorem State.modDrill_clock (f : Drill → Drill) : (s.modDrill f).clock = s.clock := rfl
@[simp] theorem State.modDrill_gens (f : Drill → Drill) : (s.modDrill f).gens = s.gens := rfl
@[simp] theorem State.modDrill_arb (f : Drill → Drill) : (s.modDrill f).arb = s.arb := rfl
@[simp] theorem State.modDrill_sched (f : Drill → Drill) : (s.modDrill f).sched = s.sched := rfl
@[simp] theorem State.modDrill_zones (f : Drill → Drill) : (s.modDrill f).zones = s.zones := rfl
@[simp] theorem State.modDrill_claims (f : Drill → Drill) : (s.modDrill f).claims = s.claims := rfl
@[simp] theorem State.modDrill_pages (f : Drill → Drill) : (s.modDrill f).pages = s.pages := rfl
@[simp] theorem State.modDrill_detectors (f : Drill → Drill) : (s.modDrill f).detectors = s.detectors := rfl
@[simp] theorem State.modDrill_za (f : Drill → Drill) : (s.modDrill f).za = s.za := rfl
@[simp] theorem State.modDrill_duckRate (f : Drill → Drill) : (s.modDrill f).duckRate = s.duckRate := rfl
@[simp] theorem State.modDrill_slotSamples (f : Drill → Drill) : (s.modDrill f).slotSamples = s.slotSamples := rfl
@[simp] theorem State.modDrill_meas (f : Drill → Drill) : (s.modDrill f).meas = s.meas := rfl
@[simp] theorem State.modDrill_testTimeout (f : Drill → Drill) : (s.modDrill f).testTimeout = s.testTimeout := rfl
@[simp] theorem State.modDrill_rooms (f : Drill → Drill) : (s.modDrill f).rooms = s.rooms := rfl
@[simp] theorem State.modDrill_polls (f : Drill → Drill) : (s.modDrill f).polls = s.polls := rfl
@[simp] theorem State.modDrill_roster (f : Drill → Drill) : (s.modDrill f).roster = s.roster := rfl
@[simp] theorem State.modDrill_drill (f : Drill → Drill) : (s.modDrill f).drill = f s.drill := rfl
@[simp] theorem State.modDrill_inputs (f : Drill → Drill) : (s.modDrill f).inputs = s.inputs := rfl
@[simp] theorem State.modDrill_ports (f : Drill → Drill) : (s.modDrill f).ports = s.ports := rfl
@[simp] theorem State.modDrill_table (f : Drill → Drill) : (s.modDrill f).table = s.table := rfl
@[simp] theorem State.modDrill_disp (f : Drill → Drill) : (s.modDrill f).disp = s.disp := rfl
@[simp] theorem State.modDrill_mgmt (f : Drill → Drill) : (s.modDrill f).mgmt = s.mgmt := rfl
@[simp] theorem State.modDrill_sending (f : Drill → Drill) : (s.modDrill f).sending = s.sending := rfl
@[simp] theorem State.modDrill_sent (f : Drill → Drill) : (s.modDrill f).sent = s.sent := rfl
@[simp] theorem State.modDrill_contest (f : Drill → Drill) : (s.modDrill f).contest = s.contest := rfl
@[simp] theorem State.modDrill_clipDue (f : Drill → Drill) : (s.modDrill f).clipDue = s.clipDue := rfl
@[simp] theorem State.modDrill_choices (f : Drill → Drill) : (s.modDrill f).choices = s.choices := rfl
@[simp] theorem State.modDrill_due (f : Drill → Drill) : (s.modDrill f).due = s.due := rfl
@[simp] theorem State.modDrill_pending (f : Drill → Drill) : (s.modDrill f).pending = s.pending := rfl

@[simp] theorem State.modInput_tickPhase (i : Fin 4) (f : Input → Input) : (s.modInput i f).tickPhase = s.tickPhase := rfl
@[simp] theorem State.modInput_elapsed (i : Fin 4) (f : Input → Input) : (s.modInput i f).elapsed = s.elapsed := rfl
@[simp] theorem State.modInput_clock (i : Fin 4) (f : Input → Input) : (s.modInput i f).clock = s.clock := rfl
@[simp] theorem State.modInput_gens (i : Fin 4) (f : Input → Input) : (s.modInput i f).gens = s.gens := rfl
@[simp] theorem State.modInput_arb (i : Fin 4) (f : Input → Input) : (s.modInput i f).arb = s.arb := rfl
@[simp] theorem State.modInput_sched (i : Fin 4) (f : Input → Input) : (s.modInput i f).sched = s.sched := rfl
@[simp] theorem State.modInput_zones (i : Fin 4) (f : Input → Input) : (s.modInput i f).zones = s.zones := rfl
@[simp] theorem State.modInput_claims (i : Fin 4) (f : Input → Input) : (s.modInput i f).claims = s.claims := rfl
@[simp] theorem State.modInput_pages (i : Fin 4) (f : Input → Input) : (s.modInput i f).pages = s.pages := rfl
@[simp] theorem State.modInput_detectors (i : Fin 4) (f : Input → Input) : (s.modInput i f).detectors = s.detectors := rfl
@[simp] theorem State.modInput_za (i : Fin 4) (f : Input → Input) : (s.modInput i f).za = s.za := rfl
@[simp] theorem State.modInput_duckRate (i : Fin 4) (f : Input → Input) : (s.modInput i f).duckRate = s.duckRate := rfl
@[simp] theorem State.modInput_slotSamples (i : Fin 4) (f : Input → Input) : (s.modInput i f).slotSamples = s.slotSamples := rfl
@[simp] theorem State.modInput_meas (i : Fin 4) (f : Input → Input) : (s.modInput i f).meas = s.meas := rfl
@[simp] theorem State.modInput_testTimeout (i : Fin 4) (f : Input → Input) : (s.modInput i f).testTimeout = s.testTimeout := rfl
@[simp] theorem State.modInput_rooms (i : Fin 4) (f : Input → Input) : (s.modInput i f).rooms = s.rooms := rfl
@[simp] theorem State.modInput_polls (i : Fin 4) (f : Input → Input) : (s.modInput i f).polls = s.polls := rfl
@[simp] theorem State.modInput_roster (i : Fin 4) (f : Input → Input) : (s.modInput i f).roster = s.roster := rfl
@[simp] theorem State.modInput_drill (i : Fin 4) (f : Input → Input) : (s.modInput i f).drill = s.drill := rfl
@[simp] theorem State.modInput_inputs (i : Fin 4) (f : Input → Input) : (s.modInput i f).inputs = s.inputs.set i (f s.inputs[i]) := rfl
@[simp] theorem State.modInput_ports (i : Fin 4) (f : Input → Input) : (s.modInput i f).ports = s.ports := rfl
@[simp] theorem State.modInput_table (i : Fin 4) (f : Input → Input) : (s.modInput i f).table = s.table := rfl
@[simp] theorem State.modInput_disp (i : Fin 4) (f : Input → Input) : (s.modInput i f).disp = s.disp := rfl
@[simp] theorem State.modInput_mgmt (i : Fin 4) (f : Input → Input) : (s.modInput i f).mgmt = s.mgmt := rfl
@[simp] theorem State.modInput_sending (i : Fin 4) (f : Input → Input) : (s.modInput i f).sending = s.sending := rfl
@[simp] theorem State.modInput_sent (i : Fin 4) (f : Input → Input) : (s.modInput i f).sent = s.sent := rfl
@[simp] theorem State.modInput_contest (i : Fin 4) (f : Input → Input) : (s.modInput i f).contest = s.contest := rfl
@[simp] theorem State.modInput_clipDue (i : Fin 4) (f : Input → Input) : (s.modInput i f).clipDue = s.clipDue := rfl
@[simp] theorem State.modInput_choices (i : Fin 4) (f : Input → Input) : (s.modInput i f).choices = s.choices := rfl
@[simp] theorem State.modInput_due (i : Fin 4) (f : Input → Input) : (s.modInput i f).due = s.due := rfl
@[simp] theorem State.modInput_pending (i : Fin 4) (f : Input → Input) : (s.modInput i f).pending = s.pending := rfl

@[simp] theorem State.modPort_tickPhase (p : Fin 5) (f : Port → Port) : (s.modPort p f).tickPhase = s.tickPhase := rfl
@[simp] theorem State.modPort_elapsed (p : Fin 5) (f : Port → Port) : (s.modPort p f).elapsed = s.elapsed := rfl
@[simp] theorem State.modPort_clock (p : Fin 5) (f : Port → Port) : (s.modPort p f).clock = s.clock := rfl
@[simp] theorem State.modPort_gens (p : Fin 5) (f : Port → Port) : (s.modPort p f).gens = s.gens := rfl
@[simp] theorem State.modPort_arb (p : Fin 5) (f : Port → Port) : (s.modPort p f).arb = s.arb := rfl
@[simp] theorem State.modPort_sched (p : Fin 5) (f : Port → Port) : (s.modPort p f).sched = s.sched := rfl
@[simp] theorem State.modPort_zones (p : Fin 5) (f : Port → Port) : (s.modPort p f).zones = s.zones := rfl
@[simp] theorem State.modPort_claims (p : Fin 5) (f : Port → Port) : (s.modPort p f).claims = s.claims := rfl
@[simp] theorem State.modPort_pages (p : Fin 5) (f : Port → Port) : (s.modPort p f).pages = s.pages := rfl
@[simp] theorem State.modPort_detectors (p : Fin 5) (f : Port → Port) : (s.modPort p f).detectors = s.detectors := rfl
@[simp] theorem State.modPort_za (p : Fin 5) (f : Port → Port) : (s.modPort p f).za = s.za := rfl
@[simp] theorem State.modPort_duckRate (p : Fin 5) (f : Port → Port) : (s.modPort p f).duckRate = s.duckRate := rfl
@[simp] theorem State.modPort_slotSamples (p : Fin 5) (f : Port → Port) : (s.modPort p f).slotSamples = s.slotSamples := rfl
@[simp] theorem State.modPort_meas (p : Fin 5) (f : Port → Port) : (s.modPort p f).meas = s.meas := rfl
@[simp] theorem State.modPort_testTimeout (p : Fin 5) (f : Port → Port) : (s.modPort p f).testTimeout = s.testTimeout := rfl
@[simp] theorem State.modPort_rooms (p : Fin 5) (f : Port → Port) : (s.modPort p f).rooms = s.rooms := rfl
@[simp] theorem State.modPort_polls (p : Fin 5) (f : Port → Port) : (s.modPort p f).polls = s.polls := rfl
@[simp] theorem State.modPort_roster (p : Fin 5) (f : Port → Port) : (s.modPort p f).roster = s.roster := rfl
@[simp] theorem State.modPort_drill (p : Fin 5) (f : Port → Port) : (s.modPort p f).drill = s.drill := rfl
@[simp] theorem State.modPort_inputs (p : Fin 5) (f : Port → Port) : (s.modPort p f).inputs = s.inputs := rfl
@[simp] theorem State.modPort_ports (p : Fin 5) (f : Port → Port) : (s.modPort p f).ports = s.ports.set p (f s.ports[p]) := rfl
@[simp] theorem State.modPort_table (p : Fin 5) (f : Port → Port) : (s.modPort p f).table = s.table := rfl
@[simp] theorem State.modPort_disp (p : Fin 5) (f : Port → Port) : (s.modPort p f).disp = s.disp := rfl
@[simp] theorem State.modPort_mgmt (p : Fin 5) (f : Port → Port) : (s.modPort p f).mgmt = s.mgmt := rfl
@[simp] theorem State.modPort_sending (p : Fin 5) (f : Port → Port) : (s.modPort p f).sending = s.sending := rfl
@[simp] theorem State.modPort_sent (p : Fin 5) (f : Port → Port) : (s.modPort p f).sent = s.sent := rfl
@[simp] theorem State.modPort_contest (p : Fin 5) (f : Port → Port) : (s.modPort p f).contest = s.contest := rfl
@[simp] theorem State.modPort_clipDue (p : Fin 5) (f : Port → Port) : (s.modPort p f).clipDue = s.clipDue := rfl
@[simp] theorem State.modPort_choices (p : Fin 5) (f : Port → Port) : (s.modPort p f).choices = s.choices := rfl
@[simp] theorem State.modPort_due (p : Fin 5) (f : Port → Port) : (s.modPort p f).due = s.due := rfl
@[simp] theorem State.modPort_pending (p : Fin 5) (f : Port → Port) : (s.modPort p f).pending = s.pending := rfl

@[simp] theorem State.modTable_tickPhase (f : Vector DispatchEntry 192 → Vector DispatchEntry 192) : (s.modTable f).tickPhase = s.tickPhase := rfl
@[simp] theorem State.modTable_elapsed (f : Vector DispatchEntry 192 → Vector DispatchEntry 192) : (s.modTable f).elapsed = s.elapsed := rfl
@[simp] theorem State.modTable_clock (f : Vector DispatchEntry 192 → Vector DispatchEntry 192) : (s.modTable f).clock = s.clock := rfl
@[simp] theorem State.modTable_gens (f : Vector DispatchEntry 192 → Vector DispatchEntry 192) : (s.modTable f).gens = s.gens := rfl
@[simp] theorem State.modTable_arb (f : Vector DispatchEntry 192 → Vector DispatchEntry 192) : (s.modTable f).arb = s.arb := rfl
@[simp] theorem State.modTable_sched (f : Vector DispatchEntry 192 → Vector DispatchEntry 192) : (s.modTable f).sched = s.sched := rfl
@[simp] theorem State.modTable_zones (f : Vector DispatchEntry 192 → Vector DispatchEntry 192) : (s.modTable f).zones = s.zones := rfl
@[simp] theorem State.modTable_claims (f : Vector DispatchEntry 192 → Vector DispatchEntry 192) : (s.modTable f).claims = s.claims := rfl
@[simp] theorem State.modTable_pages (f : Vector DispatchEntry 192 → Vector DispatchEntry 192) : (s.modTable f).pages = s.pages := rfl
@[simp] theorem State.modTable_detectors (f : Vector DispatchEntry 192 → Vector DispatchEntry 192) : (s.modTable f).detectors = s.detectors := rfl
@[simp] theorem State.modTable_za (f : Vector DispatchEntry 192 → Vector DispatchEntry 192) : (s.modTable f).za = s.za := rfl
@[simp] theorem State.modTable_duckRate (f : Vector DispatchEntry 192 → Vector DispatchEntry 192) : (s.modTable f).duckRate = s.duckRate := rfl
@[simp] theorem State.modTable_slotSamples (f : Vector DispatchEntry 192 → Vector DispatchEntry 192) : (s.modTable f).slotSamples = s.slotSamples := rfl
@[simp] theorem State.modTable_meas (f : Vector DispatchEntry 192 → Vector DispatchEntry 192) : (s.modTable f).meas = s.meas := rfl
@[simp] theorem State.modTable_testTimeout (f : Vector DispatchEntry 192 → Vector DispatchEntry 192) : (s.modTable f).testTimeout = s.testTimeout := rfl
@[simp] theorem State.modTable_rooms (f : Vector DispatchEntry 192 → Vector DispatchEntry 192) : (s.modTable f).rooms = s.rooms := rfl
@[simp] theorem State.modTable_polls (f : Vector DispatchEntry 192 → Vector DispatchEntry 192) : (s.modTable f).polls = s.polls := rfl
@[simp] theorem State.modTable_roster (f : Vector DispatchEntry 192 → Vector DispatchEntry 192) : (s.modTable f).roster = s.roster := rfl
@[simp] theorem State.modTable_drill (f : Vector DispatchEntry 192 → Vector DispatchEntry 192) : (s.modTable f).drill = s.drill := rfl
@[simp] theorem State.modTable_inputs (f : Vector DispatchEntry 192 → Vector DispatchEntry 192) : (s.modTable f).inputs = s.inputs := rfl
@[simp] theorem State.modTable_ports (f : Vector DispatchEntry 192 → Vector DispatchEntry 192) : (s.modTable f).ports = s.ports := rfl
@[simp] theorem State.modTable_table (f : Vector DispatchEntry 192 → Vector DispatchEntry 192) : (s.modTable f).table = f s.table := rfl
@[simp] theorem State.modTable_disp (f : Vector DispatchEntry 192 → Vector DispatchEntry 192) : (s.modTable f).disp = s.disp := rfl
@[simp] theorem State.modTable_mgmt (f : Vector DispatchEntry 192 → Vector DispatchEntry 192) : (s.modTable f).mgmt = s.mgmt := rfl
@[simp] theorem State.modTable_sending (f : Vector DispatchEntry 192 → Vector DispatchEntry 192) : (s.modTable f).sending = s.sending := rfl
@[simp] theorem State.modTable_sent (f : Vector DispatchEntry 192 → Vector DispatchEntry 192) : (s.modTable f).sent = s.sent := rfl
@[simp] theorem State.modTable_contest (f : Vector DispatchEntry 192 → Vector DispatchEntry 192) : (s.modTable f).contest = s.contest := rfl
@[simp] theorem State.modTable_clipDue (f : Vector DispatchEntry 192 → Vector DispatchEntry 192) : (s.modTable f).clipDue = s.clipDue := rfl
@[simp] theorem State.modTable_choices (f : Vector DispatchEntry 192 → Vector DispatchEntry 192) : (s.modTable f).choices = s.choices := rfl
@[simp] theorem State.modTable_due (f : Vector DispatchEntry 192 → Vector DispatchEntry 192) : (s.modTable f).due = s.due := rfl
@[simp] theorem State.modTable_pending (f : Vector DispatchEntry 192 → Vector DispatchEntry 192) : (s.modTable f).pending = s.pending := rfl

@[simp] theorem State.modDisp_tickPhase (f : DispatchCounters → DispatchCounters) : (s.modDisp f).tickPhase = s.tickPhase := rfl
@[simp] theorem State.modDisp_elapsed (f : DispatchCounters → DispatchCounters) : (s.modDisp f).elapsed = s.elapsed := rfl
@[simp] theorem State.modDisp_clock (f : DispatchCounters → DispatchCounters) : (s.modDisp f).clock = s.clock := rfl
@[simp] theorem State.modDisp_gens (f : DispatchCounters → DispatchCounters) : (s.modDisp f).gens = s.gens := rfl
@[simp] theorem State.modDisp_arb (f : DispatchCounters → DispatchCounters) : (s.modDisp f).arb = s.arb := rfl
@[simp] theorem State.modDisp_sched (f : DispatchCounters → DispatchCounters) : (s.modDisp f).sched = s.sched := rfl
@[simp] theorem State.modDisp_zones (f : DispatchCounters → DispatchCounters) : (s.modDisp f).zones = s.zones := rfl
@[simp] theorem State.modDisp_claims (f : DispatchCounters → DispatchCounters) : (s.modDisp f).claims = s.claims := rfl
@[simp] theorem State.modDisp_pages (f : DispatchCounters → DispatchCounters) : (s.modDisp f).pages = s.pages := rfl
@[simp] theorem State.modDisp_detectors (f : DispatchCounters → DispatchCounters) : (s.modDisp f).detectors = s.detectors := rfl
@[simp] theorem State.modDisp_za (f : DispatchCounters → DispatchCounters) : (s.modDisp f).za = s.za := rfl
@[simp] theorem State.modDisp_duckRate (f : DispatchCounters → DispatchCounters) : (s.modDisp f).duckRate = s.duckRate := rfl
@[simp] theorem State.modDisp_slotSamples (f : DispatchCounters → DispatchCounters) : (s.modDisp f).slotSamples = s.slotSamples := rfl
@[simp] theorem State.modDisp_meas (f : DispatchCounters → DispatchCounters) : (s.modDisp f).meas = s.meas := rfl
@[simp] theorem State.modDisp_testTimeout (f : DispatchCounters → DispatchCounters) : (s.modDisp f).testTimeout = s.testTimeout := rfl
@[simp] theorem State.modDisp_rooms (f : DispatchCounters → DispatchCounters) : (s.modDisp f).rooms = s.rooms := rfl
@[simp] theorem State.modDisp_polls (f : DispatchCounters → DispatchCounters) : (s.modDisp f).polls = s.polls := rfl
@[simp] theorem State.modDisp_roster (f : DispatchCounters → DispatchCounters) : (s.modDisp f).roster = s.roster := rfl
@[simp] theorem State.modDisp_drill (f : DispatchCounters → DispatchCounters) : (s.modDisp f).drill = s.drill := rfl
@[simp] theorem State.modDisp_inputs (f : DispatchCounters → DispatchCounters) : (s.modDisp f).inputs = s.inputs := rfl
@[simp] theorem State.modDisp_ports (f : DispatchCounters → DispatchCounters) : (s.modDisp f).ports = s.ports := rfl
@[simp] theorem State.modDisp_table (f : DispatchCounters → DispatchCounters) : (s.modDisp f).table = s.table := rfl
@[simp] theorem State.modDisp_disp (f : DispatchCounters → DispatchCounters) : (s.modDisp f).disp = f s.disp := rfl
@[simp] theorem State.modDisp_mgmt (f : DispatchCounters → DispatchCounters) : (s.modDisp f).mgmt = s.mgmt := rfl
@[simp] theorem State.modDisp_sending (f : DispatchCounters → DispatchCounters) : (s.modDisp f).sending = s.sending := rfl
@[simp] theorem State.modDisp_sent (f : DispatchCounters → DispatchCounters) : (s.modDisp f).sent = s.sent := rfl
@[simp] theorem State.modDisp_contest (f : DispatchCounters → DispatchCounters) : (s.modDisp f).contest = s.contest := rfl
@[simp] theorem State.modDisp_clipDue (f : DispatchCounters → DispatchCounters) : (s.modDisp f).clipDue = s.clipDue := rfl
@[simp] theorem State.modDisp_choices (f : DispatchCounters → DispatchCounters) : (s.modDisp f).choices = s.choices := rfl
@[simp] theorem State.modDisp_due (f : DispatchCounters → DispatchCounters) : (s.modDisp f).due = s.due := rfl
@[simp] theorem State.modDisp_pending (f : DispatchCounters → DispatchCounters) : (s.modDisp f).pending = s.pending := rfl

@[simp] theorem State.modMgmt_tickPhase (f : Mgmt → Mgmt) : (s.modMgmt f).tickPhase = s.tickPhase := rfl
@[simp] theorem State.modMgmt_elapsed (f : Mgmt → Mgmt) : (s.modMgmt f).elapsed = s.elapsed := rfl
@[simp] theorem State.modMgmt_clock (f : Mgmt → Mgmt) : (s.modMgmt f).clock = s.clock := rfl
@[simp] theorem State.modMgmt_gens (f : Mgmt → Mgmt) : (s.modMgmt f).gens = s.gens := rfl
@[simp] theorem State.modMgmt_arb (f : Mgmt → Mgmt) : (s.modMgmt f).arb = s.arb := rfl
@[simp] theorem State.modMgmt_sched (f : Mgmt → Mgmt) : (s.modMgmt f).sched = s.sched := rfl
@[simp] theorem State.modMgmt_zones (f : Mgmt → Mgmt) : (s.modMgmt f).zones = s.zones := rfl
@[simp] theorem State.modMgmt_claims (f : Mgmt → Mgmt) : (s.modMgmt f).claims = s.claims := rfl
@[simp] theorem State.modMgmt_pages (f : Mgmt → Mgmt) : (s.modMgmt f).pages = s.pages := rfl
@[simp] theorem State.modMgmt_detectors (f : Mgmt → Mgmt) : (s.modMgmt f).detectors = s.detectors := rfl
@[simp] theorem State.modMgmt_za (f : Mgmt → Mgmt) : (s.modMgmt f).za = s.za := rfl
@[simp] theorem State.modMgmt_duckRate (f : Mgmt → Mgmt) : (s.modMgmt f).duckRate = s.duckRate := rfl
@[simp] theorem State.modMgmt_slotSamples (f : Mgmt → Mgmt) : (s.modMgmt f).slotSamples = s.slotSamples := rfl
@[simp] theorem State.modMgmt_meas (f : Mgmt → Mgmt) : (s.modMgmt f).meas = s.meas := rfl
@[simp] theorem State.modMgmt_testTimeout (f : Mgmt → Mgmt) : (s.modMgmt f).testTimeout = s.testTimeout := rfl
@[simp] theorem State.modMgmt_rooms (f : Mgmt → Mgmt) : (s.modMgmt f).rooms = s.rooms := rfl
@[simp] theorem State.modMgmt_polls (f : Mgmt → Mgmt) : (s.modMgmt f).polls = s.polls := rfl
@[simp] theorem State.modMgmt_roster (f : Mgmt → Mgmt) : (s.modMgmt f).roster = s.roster := rfl
@[simp] theorem State.modMgmt_drill (f : Mgmt → Mgmt) : (s.modMgmt f).drill = s.drill := rfl
@[simp] theorem State.modMgmt_inputs (f : Mgmt → Mgmt) : (s.modMgmt f).inputs = s.inputs := rfl
@[simp] theorem State.modMgmt_ports (f : Mgmt → Mgmt) : (s.modMgmt f).ports = s.ports := rfl
@[simp] theorem State.modMgmt_table (f : Mgmt → Mgmt) : (s.modMgmt f).table = s.table := rfl
@[simp] theorem State.modMgmt_disp (f : Mgmt → Mgmt) : (s.modMgmt f).disp = s.disp := rfl
@[simp] theorem State.modMgmt_mgmt (f : Mgmt → Mgmt) : (s.modMgmt f).mgmt = f s.mgmt := rfl
@[simp] theorem State.modMgmt_sending (f : Mgmt → Mgmt) : (s.modMgmt f).sending = s.sending := rfl
@[simp] theorem State.modMgmt_sent (f : Mgmt → Mgmt) : (s.modMgmt f).sent = s.sent := rfl
@[simp] theorem State.modMgmt_contest (f : Mgmt → Mgmt) : (s.modMgmt f).contest = s.contest := rfl
@[simp] theorem State.modMgmt_clipDue (f : Mgmt → Mgmt) : (s.modMgmt f).clipDue = s.clipDue := rfl
@[simp] theorem State.modMgmt_choices (f : Mgmt → Mgmt) : (s.modMgmt f).choices = s.choices := rfl
@[simp] theorem State.modMgmt_due (f : Mgmt → Mgmt) : (s.modMgmt f).due = s.due := rfl
@[simp] theorem State.modMgmt_pending (f : Mgmt → Mgmt) : (s.modMgmt f).pending = s.pending := rfl

@[simp] theorem State.modSending_tickPhase (p : Fin 5) (f : OutFrame → OutFrame) : (s.modSending p f).tickPhase = s.tickPhase := rfl
@[simp] theorem State.modSending_elapsed (p : Fin 5) (f : OutFrame → OutFrame) : (s.modSending p f).elapsed = s.elapsed := rfl
@[simp] theorem State.modSending_clock (p : Fin 5) (f : OutFrame → OutFrame) : (s.modSending p f).clock = s.clock := rfl
@[simp] theorem State.modSending_gens (p : Fin 5) (f : OutFrame → OutFrame) : (s.modSending p f).gens = s.gens := rfl
@[simp] theorem State.modSending_arb (p : Fin 5) (f : OutFrame → OutFrame) : (s.modSending p f).arb = s.arb := rfl
@[simp] theorem State.modSending_sched (p : Fin 5) (f : OutFrame → OutFrame) : (s.modSending p f).sched = s.sched := rfl
@[simp] theorem State.modSending_zones (p : Fin 5) (f : OutFrame → OutFrame) : (s.modSending p f).zones = s.zones := rfl
@[simp] theorem State.modSending_claims (p : Fin 5) (f : OutFrame → OutFrame) : (s.modSending p f).claims = s.claims := rfl
@[simp] theorem State.modSending_pages (p : Fin 5) (f : OutFrame → OutFrame) : (s.modSending p f).pages = s.pages := rfl
@[simp] theorem State.modSending_detectors (p : Fin 5) (f : OutFrame → OutFrame) : (s.modSending p f).detectors = s.detectors := rfl
@[simp] theorem State.modSending_za (p : Fin 5) (f : OutFrame → OutFrame) : (s.modSending p f).za = s.za := rfl
@[simp] theorem State.modSending_duckRate (p : Fin 5) (f : OutFrame → OutFrame) : (s.modSending p f).duckRate = s.duckRate := rfl
@[simp] theorem State.modSending_slotSamples (p : Fin 5) (f : OutFrame → OutFrame) : (s.modSending p f).slotSamples = s.slotSamples := rfl
@[simp] theorem State.modSending_meas (p : Fin 5) (f : OutFrame → OutFrame) : (s.modSending p f).meas = s.meas := rfl
@[simp] theorem State.modSending_testTimeout (p : Fin 5) (f : OutFrame → OutFrame) : (s.modSending p f).testTimeout = s.testTimeout := rfl
@[simp] theorem State.modSending_rooms (p : Fin 5) (f : OutFrame → OutFrame) : (s.modSending p f).rooms = s.rooms := rfl
@[simp] theorem State.modSending_polls (p : Fin 5) (f : OutFrame → OutFrame) : (s.modSending p f).polls = s.polls := rfl
@[simp] theorem State.modSending_roster (p : Fin 5) (f : OutFrame → OutFrame) : (s.modSending p f).roster = s.roster := rfl
@[simp] theorem State.modSending_drill (p : Fin 5) (f : OutFrame → OutFrame) : (s.modSending p f).drill = s.drill := rfl
@[simp] theorem State.modSending_inputs (p : Fin 5) (f : OutFrame → OutFrame) : (s.modSending p f).inputs = s.inputs := rfl
@[simp] theorem State.modSending_ports (p : Fin 5) (f : OutFrame → OutFrame) : (s.modSending p f).ports = s.ports := rfl
@[simp] theorem State.modSending_table (p : Fin 5) (f : OutFrame → OutFrame) : (s.modSending p f).table = s.table := rfl
@[simp] theorem State.modSending_disp (p : Fin 5) (f : OutFrame → OutFrame) : (s.modSending p f).disp = s.disp := rfl
@[simp] theorem State.modSending_mgmt (p : Fin 5) (f : OutFrame → OutFrame) : (s.modSending p f).mgmt = s.mgmt := rfl
@[simp] theorem State.modSending_sending (p : Fin 5) (f : OutFrame → OutFrame) : (s.modSending p f).sending = s.sending.set p (f s.sending[p]) := rfl
@[simp] theorem State.modSending_sent (p : Fin 5) (f : OutFrame → OutFrame) : (s.modSending p f).sent = s.sent := rfl
@[simp] theorem State.modSending_contest (p : Fin 5) (f : OutFrame → OutFrame) : (s.modSending p f).contest = s.contest := rfl
@[simp] theorem State.modSending_clipDue (p : Fin 5) (f : OutFrame → OutFrame) : (s.modSending p f).clipDue = s.clipDue := rfl
@[simp] theorem State.modSending_choices (p : Fin 5) (f : OutFrame → OutFrame) : (s.modSending p f).choices = s.choices := rfl
@[simp] theorem State.modSending_due (p : Fin 5) (f : OutFrame → OutFrame) : (s.modSending p f).due = s.due := rfl
@[simp] theorem State.modSending_pending (p : Fin 5) (f : OutFrame → OutFrame) : (s.modSending p f).pending = s.pending := rfl

@[simp] theorem State.setZones_tickPhase (v : Vector Zone 16) : (s.setZones v).tickPhase = s.tickPhase := rfl
@[simp] theorem State.setZones_elapsed (v : Vector Zone 16) : (s.setZones v).elapsed = s.elapsed := rfl
@[simp] theorem State.setZones_clock (v : Vector Zone 16) : (s.setZones v).clock = s.clock := rfl
@[simp] theorem State.setZones_gens (v : Vector Zone 16) : (s.setZones v).gens = s.gens := rfl
@[simp] theorem State.setZones_arb (v : Vector Zone 16) : (s.setZones v).arb = s.arb := rfl
@[simp] theorem State.setZones_sched (v : Vector Zone 16) : (s.setZones v).sched = s.sched := rfl
@[simp] theorem State.setZones_zones (v : Vector Zone 16) : (s.setZones v).zones = v := rfl
@[simp] theorem State.setZones_claims (v : Vector Zone 16) : (s.setZones v).claims = s.claims := rfl
@[simp] theorem State.setZones_pages (v : Vector Zone 16) : (s.setZones v).pages = s.pages := rfl
@[simp] theorem State.setZones_detectors (v : Vector Zone 16) : (s.setZones v).detectors = s.detectors := rfl
@[simp] theorem State.setZones_za (v : Vector Zone 16) : (s.setZones v).za = s.za := rfl
@[simp] theorem State.setZones_duckRate (v : Vector Zone 16) : (s.setZones v).duckRate = s.duckRate := rfl
@[simp] theorem State.setZones_slotSamples (v : Vector Zone 16) : (s.setZones v).slotSamples = s.slotSamples := rfl
@[simp] theorem State.setZones_meas (v : Vector Zone 16) : (s.setZones v).meas = s.meas := rfl
@[simp] theorem State.setZones_testTimeout (v : Vector Zone 16) : (s.setZones v).testTimeout = s.testTimeout := rfl
@[simp] theorem State.setZones_rooms (v : Vector Zone 16) : (s.setZones v).rooms = s.rooms := rfl
@[simp] theorem State.setZones_polls (v : Vector Zone 16) : (s.setZones v).polls = s.polls := rfl
@[simp] theorem State.setZones_roster (v : Vector Zone 16) : (s.setZones v).roster = s.roster := rfl
@[simp] theorem State.setZones_drill (v : Vector Zone 16) : (s.setZones v).drill = s.drill := rfl
@[simp] theorem State.setZones_inputs (v : Vector Zone 16) : (s.setZones v).inputs = s.inputs := rfl
@[simp] theorem State.setZones_ports (v : Vector Zone 16) : (s.setZones v).ports = s.ports := rfl
@[simp] theorem State.setZones_table (v : Vector Zone 16) : (s.setZones v).table = s.table := rfl
@[simp] theorem State.setZones_disp (v : Vector Zone 16) : (s.setZones v).disp = s.disp := rfl
@[simp] theorem State.setZones_mgmt (v : Vector Zone 16) : (s.setZones v).mgmt = s.mgmt := rfl
@[simp] theorem State.setZones_sending (v : Vector Zone 16) : (s.setZones v).sending = s.sending := rfl
@[simp] theorem State.setZones_sent (v : Vector Zone 16) : (s.setZones v).sent = s.sent := rfl
@[simp] theorem State.setZones_contest (v : Vector Zone 16) : (s.setZones v).contest = s.contest := rfl
@[simp] theorem State.setZones_clipDue (v : Vector Zone 16) : (s.setZones v).clipDue = s.clipDue := rfl
@[simp] theorem State.setZones_choices (v : Vector Zone 16) : (s.setZones v).choices = s.choices := rfl
@[simp] theorem State.setZones_due (v : Vector Zone 16) : (s.setZones v).due = s.due := rfl
@[simp] theorem State.setZones_pending (v : Vector Zone 16) : (s.setZones v).pending = s.pending := rfl

@[simp] theorem State.modContest_tickPhase (f : Contest → Contest) : (s.modContest f).tickPhase = s.tickPhase := rfl
@[simp] theorem State.modContest_elapsed (f : Contest → Contest) : (s.modContest f).elapsed = s.elapsed := rfl
@[simp] theorem State.modContest_clock (f : Contest → Contest) : (s.modContest f).clock = s.clock := rfl
@[simp] theorem State.modContest_gens (f : Contest → Contest) : (s.modContest f).gens = s.gens := rfl
@[simp] theorem State.modContest_arb (f : Contest → Contest) : (s.modContest f).arb = s.arb := rfl
@[simp] theorem State.modContest_sched (f : Contest → Contest) : (s.modContest f).sched = s.sched := rfl
@[simp] theorem State.modContest_zones (f : Contest → Contest) : (s.modContest f).zones = s.zones := rfl
@[simp] theorem State.modContest_claims (f : Contest → Contest) : (s.modContest f).claims = s.claims := rfl
@[simp] theorem State.modContest_pages (f : Contest → Contest) : (s.modContest f).pages = s.pages := rfl
@[simp] theorem State.modContest_detectors (f : Contest → Contest) : (s.modContest f).detectors = s.detectors := rfl
@[simp] theorem State.modContest_za (f : Contest → Contest) : (s.modContest f).za = s.za := rfl
@[simp] theorem State.modContest_duckRate (f : Contest → Contest) : (s.modContest f).duckRate = s.duckRate := rfl
@[simp] theorem State.modContest_slotSamples (f : Contest → Contest) : (s.modContest f).slotSamples = s.slotSamples := rfl
@[simp] theorem State.modContest_meas (f : Contest → Contest) : (s.modContest f).meas = s.meas := rfl
@[simp] theorem State.modContest_testTimeout (f : Contest → Contest) : (s.modContest f).testTimeout = s.testTimeout := rfl
@[simp] theorem State.modContest_rooms (f : Contest → Contest) : (s.modContest f).rooms = s.rooms := rfl
@[simp] theorem State.modContest_polls (f : Contest → Contest) : (s.modContest f).polls = s.polls := rfl
@[simp] theorem State.modContest_roster (f : Contest → Contest) : (s.modContest f).roster = s.roster := rfl
@[simp] theorem State.modContest_drill (f : Contest → Contest) : (s.modContest f).drill = s.drill := rfl
@[simp] theorem State.modContest_inputs (f : Contest → Contest) : (s.modContest f).inputs = s.inputs := rfl
@[simp] theorem State.modContest_ports (f : Contest → Contest) : (s.modContest f).ports = s.ports := rfl
@[simp] theorem State.modContest_table (f : Contest → Contest) : (s.modContest f).table = s.table := rfl
@[simp] theorem State.modContest_disp (f : Contest → Contest) : (s.modContest f).disp = s.disp := rfl
@[simp] theorem State.modContest_mgmt (f : Contest → Contest) : (s.modContest f).mgmt = s.mgmt := rfl
@[simp] theorem State.modContest_sending (f : Contest → Contest) : (s.modContest f).sending = s.sending := rfl
@[simp] theorem State.modContest_sent (f : Contest → Contest) : (s.modContest f).sent = s.sent := rfl
@[simp] theorem State.modContest_contest (f : Contest → Contest) : (s.modContest f).contest = f s.contest := rfl
@[simp] theorem State.modContest_clipDue (f : Contest → Contest) : (s.modContest f).clipDue = s.clipDue := rfl
@[simp] theorem State.modContest_choices (f : Contest → Contest) : (s.modContest f).choices = s.choices := rfl
@[simp] theorem State.modContest_due (f : Contest → Contest) : (s.modContest f).due = s.due := rfl
@[simp] theorem State.modContest_pending (f : Contest → Contest) : (s.modContest f).pending = s.pending := rfl

@[simp] theorem State.setClipDue_tickPhase (x : ZoneSet) : (s.setClipDue x).tickPhase = s.tickPhase := rfl
@[simp] theorem State.setClipDue_elapsed (x : ZoneSet) : (s.setClipDue x).elapsed = s.elapsed := rfl
@[simp] theorem State.setClipDue_clock (x : ZoneSet) : (s.setClipDue x).clock = s.clock := rfl
@[simp] theorem State.setClipDue_gens (x : ZoneSet) : (s.setClipDue x).gens = s.gens := rfl
@[simp] theorem State.setClipDue_arb (x : ZoneSet) : (s.setClipDue x).arb = s.arb := rfl
@[simp] theorem State.setClipDue_sched (x : ZoneSet) : (s.setClipDue x).sched = s.sched := rfl
@[simp] theorem State.setClipDue_zones (x : ZoneSet) : (s.setClipDue x).zones = s.zones := rfl
@[simp] theorem State.setClipDue_claims (x : ZoneSet) : (s.setClipDue x).claims = s.claims := rfl
@[simp] theorem State.setClipDue_pages (x : ZoneSet) : (s.setClipDue x).pages = s.pages := rfl
@[simp] theorem State.setClipDue_detectors (x : ZoneSet) : (s.setClipDue x).detectors = s.detectors := rfl
@[simp] theorem State.setClipDue_za (x : ZoneSet) : (s.setClipDue x).za = s.za := rfl
@[simp] theorem State.setClipDue_duckRate (x : ZoneSet) : (s.setClipDue x).duckRate = s.duckRate := rfl
@[simp] theorem State.setClipDue_slotSamples (x : ZoneSet) : (s.setClipDue x).slotSamples = s.slotSamples := rfl
@[simp] theorem State.setClipDue_meas (x : ZoneSet) : (s.setClipDue x).meas = s.meas := rfl
@[simp] theorem State.setClipDue_testTimeout (x : ZoneSet) : (s.setClipDue x).testTimeout = s.testTimeout := rfl
@[simp] theorem State.setClipDue_rooms (x : ZoneSet) : (s.setClipDue x).rooms = s.rooms := rfl
@[simp] theorem State.setClipDue_polls (x : ZoneSet) : (s.setClipDue x).polls = s.polls := rfl
@[simp] theorem State.setClipDue_roster (x : ZoneSet) : (s.setClipDue x).roster = s.roster := rfl
@[simp] theorem State.setClipDue_drill (x : ZoneSet) : (s.setClipDue x).drill = s.drill := rfl
@[simp] theorem State.setClipDue_inputs (x : ZoneSet) : (s.setClipDue x).inputs = s.inputs := rfl
@[simp] theorem State.setClipDue_ports (x : ZoneSet) : (s.setClipDue x).ports = s.ports := rfl
@[simp] theorem State.setClipDue_table (x : ZoneSet) : (s.setClipDue x).table = s.table := rfl
@[simp] theorem State.setClipDue_disp (x : ZoneSet) : (s.setClipDue x).disp = s.disp := rfl
@[simp] theorem State.setClipDue_mgmt (x : ZoneSet) : (s.setClipDue x).mgmt = s.mgmt := rfl
@[simp] theorem State.setClipDue_sending (x : ZoneSet) : (s.setClipDue x).sending = s.sending := rfl
@[simp] theorem State.setClipDue_sent (x : ZoneSet) : (s.setClipDue x).sent = s.sent := rfl
@[simp] theorem State.setClipDue_contest (x : ZoneSet) : (s.setClipDue x).contest = s.contest := rfl
@[simp] theorem State.setClipDue_clipDue (x : ZoneSet) : (s.setClipDue x).clipDue = x := rfl
@[simp] theorem State.setClipDue_choices (x : ZoneSet) : (s.setClipDue x).choices = s.choices := rfl
@[simp] theorem State.setClipDue_due (x : ZoneSet) : (s.setClipDue x).due = s.due := rfl
@[simp] theorem State.setClipDue_pending (x : ZoneSet) : (s.setClipDue x).pending = s.pending := rfl

@[simp] theorem State.setChoices_tickPhase (n : Nat) : (s.setChoices n).tickPhase = s.tickPhase := rfl
@[simp] theorem State.setChoices_elapsed (n : Nat) : (s.setChoices n).elapsed = s.elapsed := rfl
@[simp] theorem State.setChoices_clock (n : Nat) : (s.setChoices n).clock = s.clock := rfl
@[simp] theorem State.setChoices_gens (n : Nat) : (s.setChoices n).gens = s.gens := rfl
@[simp] theorem State.setChoices_arb (n : Nat) : (s.setChoices n).arb = s.arb := rfl
@[simp] theorem State.setChoices_sched (n : Nat) : (s.setChoices n).sched = s.sched := rfl
@[simp] theorem State.setChoices_zones (n : Nat) : (s.setChoices n).zones = s.zones := rfl
@[simp] theorem State.setChoices_claims (n : Nat) : (s.setChoices n).claims = s.claims := rfl
@[simp] theorem State.setChoices_pages (n : Nat) : (s.setChoices n).pages = s.pages := rfl
@[simp] theorem State.setChoices_detectors (n : Nat) : (s.setChoices n).detectors = s.detectors := rfl
@[simp] theorem State.setChoices_za (n : Nat) : (s.setChoices n).za = s.za := rfl
@[simp] theorem State.setChoices_duckRate (n : Nat) : (s.setChoices n).duckRate = s.duckRate := rfl
@[simp] theorem State.setChoices_slotSamples (n : Nat) : (s.setChoices n).slotSamples = s.slotSamples := rfl
@[simp] theorem State.setChoices_meas (n : Nat) : (s.setChoices n).meas = s.meas := rfl
@[simp] theorem State.setChoices_testTimeout (n : Nat) : (s.setChoices n).testTimeout = s.testTimeout := rfl
@[simp] theorem State.setChoices_rooms (n : Nat) : (s.setChoices n).rooms = s.rooms := rfl
@[simp] theorem State.setChoices_polls (n : Nat) : (s.setChoices n).polls = s.polls := rfl
@[simp] theorem State.setChoices_roster (n : Nat) : (s.setChoices n).roster = s.roster := rfl
@[simp] theorem State.setChoices_drill (n : Nat) : (s.setChoices n).drill = s.drill := rfl
@[simp] theorem State.setChoices_inputs (n : Nat) : (s.setChoices n).inputs = s.inputs := rfl
@[simp] theorem State.setChoices_ports (n : Nat) : (s.setChoices n).ports = s.ports := rfl
@[simp] theorem State.setChoices_table (n : Nat) : (s.setChoices n).table = s.table := rfl
@[simp] theorem State.setChoices_disp (n : Nat) : (s.setChoices n).disp = s.disp := rfl
@[simp] theorem State.setChoices_mgmt (n : Nat) : (s.setChoices n).mgmt = s.mgmt := rfl
@[simp] theorem State.setChoices_sending (n : Nat) : (s.setChoices n).sending = s.sending := rfl
@[simp] theorem State.setChoices_sent (n : Nat) : (s.setChoices n).sent = s.sent := rfl
@[simp] theorem State.setChoices_contest (n : Nat) : (s.setChoices n).contest = s.contest := rfl
@[simp] theorem State.setChoices_clipDue (n : Nat) : (s.setChoices n).clipDue = s.clipDue := rfl
@[simp] theorem State.setChoices_choices (n : Nat) : (s.setChoices n).choices = n := rfl
@[simp] theorem State.setChoices_due (n : Nat) : (s.setChoices n).due = s.due := rfl
@[simp] theorem State.setChoices_pending (n : Nat) : (s.setChoices n).pending = s.pending := rfl

@[simp] theorem State.setDue_tickPhase (l : List Instr) : (s.setDue l).tickPhase = s.tickPhase := rfl
@[simp] theorem State.setDue_elapsed (l : List Instr) : (s.setDue l).elapsed = s.elapsed := rfl
@[simp] theorem State.setDue_clock (l : List Instr) : (s.setDue l).clock = s.clock := rfl
@[simp] theorem State.setDue_gens (l : List Instr) : (s.setDue l).gens = s.gens := rfl
@[simp] theorem State.setDue_arb (l : List Instr) : (s.setDue l).arb = s.arb := rfl
@[simp] theorem State.setDue_sched (l : List Instr) : (s.setDue l).sched = s.sched := rfl
@[simp] theorem State.setDue_zones (l : List Instr) : (s.setDue l).zones = s.zones := rfl
@[simp] theorem State.setDue_claims (l : List Instr) : (s.setDue l).claims = s.claims := rfl
@[simp] theorem State.setDue_pages (l : List Instr) : (s.setDue l).pages = s.pages := rfl
@[simp] theorem State.setDue_detectors (l : List Instr) : (s.setDue l).detectors = s.detectors := rfl
@[simp] theorem State.setDue_za (l : List Instr) : (s.setDue l).za = s.za := rfl
@[simp] theorem State.setDue_duckRate (l : List Instr) : (s.setDue l).duckRate = s.duckRate := rfl
@[simp] theorem State.setDue_slotSamples (l : List Instr) : (s.setDue l).slotSamples = s.slotSamples := rfl
@[simp] theorem State.setDue_meas (l : List Instr) : (s.setDue l).meas = s.meas := rfl
@[simp] theorem State.setDue_testTimeout (l : List Instr) : (s.setDue l).testTimeout = s.testTimeout := rfl
@[simp] theorem State.setDue_rooms (l : List Instr) : (s.setDue l).rooms = s.rooms := rfl
@[simp] theorem State.setDue_polls (l : List Instr) : (s.setDue l).polls = s.polls := rfl
@[simp] theorem State.setDue_roster (l : List Instr) : (s.setDue l).roster = s.roster := rfl
@[simp] theorem State.setDue_drill (l : List Instr) : (s.setDue l).drill = s.drill := rfl
@[simp] theorem State.setDue_inputs (l : List Instr) : (s.setDue l).inputs = s.inputs := rfl
@[simp] theorem State.setDue_ports (l : List Instr) : (s.setDue l).ports = s.ports := rfl
@[simp] theorem State.setDue_table (l : List Instr) : (s.setDue l).table = s.table := rfl
@[simp] theorem State.setDue_disp (l : List Instr) : (s.setDue l).disp = s.disp := rfl
@[simp] theorem State.setDue_mgmt (l : List Instr) : (s.setDue l).mgmt = s.mgmt := rfl
@[simp] theorem State.setDue_sending (l : List Instr) : (s.setDue l).sending = s.sending := rfl
@[simp] theorem State.setDue_sent (l : List Instr) : (s.setDue l).sent = s.sent := rfl
@[simp] theorem State.setDue_contest (l : List Instr) : (s.setDue l).contest = s.contest := rfl
@[simp] theorem State.setDue_clipDue (l : List Instr) : (s.setDue l).clipDue = s.clipDue := rfl
@[simp] theorem State.setDue_choices (l : List Instr) : (s.setDue l).choices = s.choices := rfl
@[simp] theorem State.setDue_due (l : List Instr) : (s.setDue l).due = l := rfl
@[simp] theorem State.setDue_pending (l : List Instr) : (s.setDue l).pending = s.pending := rfl

@[simp] theorem State.setPending_tickPhase (l : List Instr) : (s.setPending l).tickPhase = s.tickPhase := rfl
@[simp] theorem State.setPending_elapsed (l : List Instr) : (s.setPending l).elapsed = s.elapsed := rfl
@[simp] theorem State.setPending_clock (l : List Instr) : (s.setPending l).clock = s.clock := rfl
@[simp] theorem State.setPending_gens (l : List Instr) : (s.setPending l).gens = s.gens := rfl
@[simp] theorem State.setPending_arb (l : List Instr) : (s.setPending l).arb = s.arb := rfl
@[simp] theorem State.setPending_sched (l : List Instr) : (s.setPending l).sched = s.sched := rfl
@[simp] theorem State.setPending_zones (l : List Instr) : (s.setPending l).zones = s.zones := rfl
@[simp] theorem State.setPending_claims (l : List Instr) : (s.setPending l).claims = s.claims := rfl
@[simp] theorem State.setPending_pages (l : List Instr) : (s.setPending l).pages = s.pages := rfl
@[simp] theorem State.setPending_detectors (l : List Instr) : (s.setPending l).detectors = s.detectors := rfl
@[simp] theorem State.setPending_za (l : List Instr) : (s.setPending l).za = s.za := rfl
@[simp] theorem State.setPending_duckRate (l : List Instr) : (s.setPending l).duckRate = s.duckRate := rfl
@[simp] theorem State.setPending_slotSamples (l : List Instr) : (s.setPending l).slotSamples = s.slotSamples := rfl
@[simp] theorem State.setPending_meas (l : List Instr) : (s.setPending l).meas = s.meas := rfl
@[simp] theorem State.setPending_testTimeout (l : List Instr) : (s.setPending l).testTimeout = s.testTimeout := rfl
@[simp] theorem State.setPending_rooms (l : List Instr) : (s.setPending l).rooms = s.rooms := rfl
@[simp] theorem State.setPending_polls (l : List Instr) : (s.setPending l).polls = s.polls := rfl
@[simp] theorem State.setPending_roster (l : List Instr) : (s.setPending l).roster = s.roster := rfl
@[simp] theorem State.setPending_drill (l : List Instr) : (s.setPending l).drill = s.drill := rfl
@[simp] theorem State.setPending_inputs (l : List Instr) : (s.setPending l).inputs = s.inputs := rfl
@[simp] theorem State.setPending_ports (l : List Instr) : (s.setPending l).ports = s.ports := rfl
@[simp] theorem State.setPending_table (l : List Instr) : (s.setPending l).table = s.table := rfl
@[simp] theorem State.setPending_disp (l : List Instr) : (s.setPending l).disp = s.disp := rfl
@[simp] theorem State.setPending_mgmt (l : List Instr) : (s.setPending l).mgmt = s.mgmt := rfl
@[simp] theorem State.setPending_sending (l : List Instr) : (s.setPending l).sending = s.sending := rfl
@[simp] theorem State.setPending_sent (l : List Instr) : (s.setPending l).sent = s.sent := rfl
@[simp] theorem State.setPending_contest (l : List Instr) : (s.setPending l).contest = s.contest := rfl
@[simp] theorem State.setPending_clipDue (l : List Instr) : (s.setPending l).clipDue = s.clipDue := rfl
@[simp] theorem State.setPending_choices (l : List Instr) : (s.setPending l).choices = s.choices := rfl
@[simp] theorem State.setPending_due (l : List Instr) : (s.setPending l).due = s.due := rfl
@[simp] theorem State.setPending_pending (l : List Instr) : (s.setPending l).pending = l := rfl

end Sys2Proof.Machine
end

