-- ==== Sys2Proof/Laws/Ops.lean ====
section
/-!
SUPPORT. What the plain operations answer: saturating counters, clamps, durations, sets, and the three ways in which a
command, an event or a cell is taken. One lemma per operation says it once.
-/
namespace Sys2Proof.Machine

/-! ## Numbers -/

theorem bump_le (n : Nat) : bump n ≤ 65535 := Nat.min_le_right _ _

theorem bump_of_lt {n : Nat} (h : n < 65535) : bump n = n + 1 := by unfold bump; omega

theorem bump_stays : bump 65535 = 65535 := rfl

theorem clampNat_mem {lo hi : Nat} (n : Nat) (h : lo ≤ hi) : lo ≤ clampNat lo hi n ∧ clampNat lo hi n ≤ hi := by
  unfold clampNat; omega

theorem clampNat_eq {lo hi n : Nat} (h1 : lo ≤ n) (h2 : n ≤ hi) : clampNat lo hi n = n := by unfold clampNat; omega

theorem clampInt_mem {lo hi : Int} (v : Int) (h : lo ≤ hi) : lo ≤ clampInt lo hi v ∧ clampInt lo hi v ≤ hi := by
  unfold clampInt; omega

theorem clampInt_eq {lo hi v : Int} (h1 : lo ≤ v) (h2 : v ≤ hi) : clampInt lo hi v = v := by unfold clampInt; omega

theorem expired_iff (now stamp : Word32) (length : Nat) : expired now stamp length = true ↔ length ≤ since now stamp := by
  simp [expired]

/-! ## Sets -/

theorem mem_members {n : Nat} (s : BitVec n) (i : Fin n) : i ∈ members s ↔ s.getLsbD i.val = true := by
  simp [members]

theorem getLsbD_without {n : Nat} (s t : BitVec n) (i : Fin n) :
    (without s t).getLsbD i.val = (s.getLsbD i.val && !t.getLsbD i.val) := by
  simp [without]

@[simp] theorem without_zero {n : Nat} (s : BitVec n) : without s (BitVec.ofNat n 0) = s := by
  ext i hi; simp [without]

@[simp] theorem without_self {n : Nat} (s : BitVec n) : without s s = BitVec.ofNat n 0 := by
  ext i hi; simp [without]

theorem getLsbD_setOf_fold {n : Nat} (p : Fin n → Bool) (i : Fin n) (l : List (Fin n)) :
    ∀ acc : BitVec n,
      (l.foldl (fun a j => if p j then a ||| BitVec.ofNat n (2 ^ j.val) else a) acc).getLsbD i.val
        = (acc.getLsbD i.val || (p i && decide (i ∈ l))) := by
  induction l with
  | nil => intro acc; simp
  | cons j l ih =>
    intro acc
    rw [List.foldl_cons, ih]
    by_cases hj : i = j
    · have hz : (BitVec.ofNat n (2 ^ j.val)).getLsbD i.val = true := by
        rw [BitVec.getLsbD_ofNat, hj, Nat.testBit_two_pow_self, decide_eq_true j.isLt]; rfl
      have hm : decide (i ∈ j :: l) = true := decide_eq_true (hj ▸ List.mem_cons_self)
      rw [hm, ← hj] at *
      cases hp : p i with
      | true => rw [if_pos rfl, BitVec.getLsbD_or, hz, Bool.or_true, Bool.true_or, Bool.true_and, Bool.or_true]
      | false => rw [if_neg (by decide), Bool.false_and, Bool.false_and]
    · have hv : ¬ j.val = i.val := fun h => hj (Fin.ext h.symm)
      have hz : (BitVec.ofNat n (2 ^ j.val)).getLsbD i.val = false := by
        rw [BitVec.getLsbD_ofNat, Nat.testBit_two_pow_of_ne hv, Bool.and_false]
      have hm : decide (i ∈ j :: l) = decide (i ∈ l) := by simp [hj]
      cases hp : p j with
      | true => rw [if_pos rfl, BitVec.getLsbD_or, hz, Bool.or_false, hm]
      | false => rw [if_neg (by decide), hm]

/-- The set of the members that satisfy a test holds exactly those. -/
theorem getLsbD_setOf {n : Nat} (p : Fin n → Bool) (i : Fin n) : (setOf p).getLsbD i.val = p i := by
  unfold setOf
  rw [getLsbD_setOf_fold]
  simp

theorem members_setOf {n : Nat} (p : Fin n → Bool) : members (setOf p) = (List.finRange n).filter p := by
  simp only [members, getLsbD_setOf]

@[simp] theorem getElem_setOf {n : Nat} (p : Fin n → Bool) (i : Fin n) : (setOf p)[i.val] = p i := by
  rw [← BitVec.getLsbD_eq_getElem i.isLt, getLsbD_setOf]

/-- What a set operation can answer (R162). -/
theorem setOp_cases {n : Nat} {op : Nat} {old new r : BitVec n} (h : setOp op old new = some r) :
    (op = 0 ∧ r = new) ∨ (op = 1 ∧ r = old ||| new) ∨ (op = 2 ∧ r = without old new) := by
  unfold setOp at h
  split at h <;> simp_all

/-! ## Places -/

@[simp] theorem zoneOf_leg_slot (z : Fin 16) : zoneOf (legOfZone z) (slotOfZone z) = z := by
  apply Fin.ext; simp only [zoneOf, legOfZone, slotOfZone]; omega

@[simp] theorem legOfZone_zoneOf (l k : Fin 4) : legOfZone (zoneOf l k) = l := by
  apply Fin.ext; simp only [zoneOf, legOfZone]; omega

@[simp] theorem slotOfZone_zoneOf (l k : Fin 4) : slotOfZone (zoneOf l k) = k := by
  apply Fin.ext; simp only [zoneOf, slotOfZone]; omega

@[simp] theorem portLeg_legPort (l : Fin 4) : portLeg (legPort l) = some l := by
  simp [portLeg, legPort]

@[simp] theorem portLeg_trunkPort : portLeg trunkPort = none := rfl

theorem legPort_ne_trunkPort (l : Fin 4) : legPort l ≠ trunkPort := by revert l; decide

/-! ## Taking commands, events and cells -/

variable {s : State}

theorem settle_of_settled (h : s.Settled) : s.settle = s := by
  unfold State.settle; rw [h]; rfl

theorem settle_of_waits (h : s.tickWaits = true) : s.settle = countTick s := by
  unfold State.settle; rw [h]; rfl

/-- Once the counts of a tick are taken, they are not taken again in its frame. -/
theorem settle_settled (s : State) : s.settle.Settled := by
  unfold State.settle
  split
  · simp [State.Settled, State.tickWaits, countTick]
  · simp_all [State.Settled]

/-- What the counts of a tick change. -/
theorem settle_frame (s : State) :
    s.settle = { s with tickPhase := s.settle.tickPhase, elapsed := s.settle.elapsed, gens := s.settle.gens,
                        drill := s.settle.drill, due := s.settle.due } := by
  unfold State.settle
  split <;> rfl

/-- An event that is due has its effect once, and is due no longer. -/
theorem onEvent_of_due {c : Instr} (act : State → State) (h : s.IsDue c) : s.onEvent c act = act (s.take c) := by
  unfold State.onEvent; simp only [settle_of_settled h.1]; rw [h.2]; rfl

/-- An event that is not due does not fall, and nothing happens. -/
theorem onEvent_of_not_due {c : Instr} (act : State → State) (h : s.Settled) (hd : s.due.contains c = false) :
    s.onEvent c act = s := by
  unfold State.onEvent; simp only [settle_of_settled h]; rw [hd]; rfl

theorem onCommand_eq (c : Instr) (act : State → State) : s.onCommand c act = act (s.begun c) := rfl

theorem onCell_of_settled (c : Instr) (act : State → State) (h : s.Settled) : s.onCell c act = act (s.take c) := by
  unfold State.onCell; rw [settle_of_settled h]

/-! ## The tick and the clip counts -/

@[simp] theorem rampZones_zone (z : Fin 16) : (rampZones s).zones[z] = s.zones[z].ramp s.duckRate := by
  simp [rampZones]

@[simp] theorem countClips_zone (z : Fin 16) : (countClips s).zones[z] =
    if s.clipDue.getLsbD z.val then { s.zones[z] with clip := bump s.zones[z].clip } else s.zones[z] := by
  simp [countClips]

/-- A READ of a clip counter takes the frame's clip counts first, or leaves them, and takes a fresh choice only where the
zone has one outstanding. -/
theorem orderClips_cases (z : Fin 16) (s : State) :
    (s.clipDue.getLsbD z.val = false ∧ s.orderClips z = s)
    ∨ (s.clipDue.getLsbD z.val = true ∧ s.orderClips z = (countClips s).setChoices (s.choices + 1))
    ∨ (s.clipDue.getLsbD z.val = true ∧ s.orderClips z = s.setChoices (s.choices + 1)) := by
  unfold State.orderClips
  cases s.clipDue.getLsbD z.val <;> cases Config.clipsFirst s.choices <;> simp

end Sys2Proof.Machine
end

