-- ==== Sys2Proof/Laws/Still.lean ====
section
/-!
SUPPORT. What the shared operations leave alone. Offers, notices, responses, claims, re-evaluations, starts and ends of
generators and pages, and bell requests change only queues, counters, claims, owners, power and test states, generators and
pages, never what `State.still` keeps. One lemma per shared operation says so once.
-/
namespace Sys2Proof.Machine

/-! ## Folds -/

theorem foldl_still {α : Type} (f : State → α → State) (h : ∀ t a, (f t a).still = t.still) (l : List α) :
    ∀ s, (l.foldl f s).still = s.still := by
  induction l with
  | nil => intro s; rfl
  | cons a l ih => intro s; rw [List.foldl_cons, ih, h]

/-! ## Updates -/

variable (s : State)

@[simp] theorem modGen_still (g : Fin 5) (f : Gen → Gen) : (s.modGen g f).still = s.still := rfl
@[simp] theorem setClaim_still (c : Fin 13) (v : Option Claim) : (s.setClaim c v).still = s.still := rfl
@[simp] theorem modPage_still (p : Fin 8) (f : Page → Page) : (s.modPage p f).still = s.still := rfl
@[simp] theorem modMeas_still (l : Fin 4) (f : MeasSlot → MeasSlot) : (s.modMeas l f).still = s.still := rfl
@[simp] theorem modPoll_still (l : Fin 4) (f : LegPoll → LegPoll) : (s.modPoll l f).still = s.still := rfl
@[simp] theorem modContest_still (f : Contest → Contest) : (s.modContest f).still = s.still := rfl
@[simp] theorem asEvent_still (act : State → State) : (asEvent act s).still = (act s).still := rfl
@[simp] theorem setDue_still (l : List Instr) : (s.setDue l).still = s.still := rfl
@[simp] theorem take_still (c : Instr) : (s.take c).still = s.still := rfl

theorem modArb_still {f : Arbiter → Arbiter} (h : ∀ a, (f a).tables = a.tables) : (s.modArb f).still = s.still := by
  simp [State.still, h]

theorem modMgmt_still {f : Mgmt → Mgmt}
    (h : ∀ m, (f m).enables = m.enables ∧ (f m).deferred = m.deferred ∧ (f m).executed = m.executed) :
    (s.modMgmt f).still = s.still := by
  obtain ⟨h1, h2, h3⟩ := h s.mgmt
  simp [State.still, h1, h2, h3]

theorem modDrill_still {f : Drill → Drill} (h : ∀ d, { f d with owed := 0 } = { d with owed := 0 }) :
    (s.modDrill f).still = s.still := by
  simp only [State.still, State.modDrill, h]

theorem modZone_still (z : Fin 16) {f : Zone → Zone} (h : ∀ k, (f k).settings = k.settings) :
    (s.modZone z f).still = s.still := by
  have e : (Vector.ofFn fun i : Fin 16 => ((s.modZone z f).zones[i]).settings)
      = Vector.ofFn fun i : Fin 16 => (s.zones[i]).settings := by
    congr 1; funext i
    by_cases hi : z = i
    · subst hi; simp [h]
    · simp [Fin.val_ne_of_ne hi]
  simp only [State.still, e]; rfl

theorem modPort_still (p : Fin 5) {f : Port → Port} (h : (f s.ports[p]).link = s.ports[p].link) :
    (s.modPort p f).still = s.still := by
  have e : (Vector.ofFn fun i : Fin 5 => ((s.modPort p f).ports[i]).link)
      = Vector.ofFn fun i : Fin 5 => (s.ports[i]).link := by
    congr 1; funext i
    by_cases hi : p = i
    · subst hi; simpa using h
    · simp [Fin.val_ne_of_ne hi]
  simp only [State.still, e]; rfl

/-! ## Queues -/

theorem Port.offer_link (isLeg : Bool) (cap : Nat) (c : QCell) (p : Port) : (p.offer isLeg cap c).1.link = p.link := by
  unfold Port.offer
  repeat' split
  all_goals rfl

@[simp] theorem rawOffer_still (p : Fin 5) (c : QCell) : (rawOffer p c s).1.still = s.still :=
  modPort_still s p (Port.offer_link _ _ _ _)

@[simp] theorem abandonTest_still (leg : Fin 4) (c : Cell) : (abandonTest leg c s).still = s.still := by
  unfold abandonTest
  split
  · dsimp only
    split
    · rw [modZone_still]
      · simp
      · intro k; rfl
    · rfl
  · rfl

@[simp] theorem tellLegLoss_still (leg : Fin 4) (c : Cell) : (tellLegLoss leg c s).still = s.still := by
  unfold tellLegLoss
  repeat' split
  · rfl
  · rfl
  · simp
  · exact modDrill_still s fun d => rfl
  · rfl

@[simp] theorem tellTrunkLoss_still (c : Cell) : (tellTrunkLoss c s).still = s.still := by
  unfold tellTrunkLoss
  repeat' split
  · exact modMgmt_still s fun m => ⟨rfl, rfl, rfl⟩
  · exact modMgmt_still s fun m => ⟨rfl, rfl, rfl⟩
  · rfl

@[simp] theorem tellLoss_still (p : Fin 5) (c : Cell) : (tellLoss p c s).still = s.still := by
  unfold tellLoss; split <;> simp

@[simp] theorem tellRefused_still (p : Fin 5) (c : Cell) : (tellRefused p c s).still = s.still := by
  unfold tellRefused; split <;> simp

@[simp] theorem queueLoss_still (p : Fin 5) (r : LossReason) (k : Octet) : (queueLoss p r k s).still = s.still := by
  unfold queueLoss
  split
  · dsimp only; split <;> simp
  · rfl

@[simp] theorem reportLoss_still (p : Fin 5) (r : LossReason) (c : Cell) : (reportLoss p r c s).still = s.still := by
  unfold reportLoss; split <;> simp

/-- An offer changes the queue it meets, and what its losses tell the makers. -/
@[simp] theorem offer_still (p : Fin 5) (c : QCell) : (offer p c s).1.still = s.still := by
  unfold offer
  dsimp only
  split <;> simp

@[simp] theorem notify_still (k : NoticeKind) (n : Nat) (d : List Octet) : (notify k n d s).still = s.still := by
  unfold notify; split <;> simp

@[simp] theorem offerResponse_still (t k : Octet) (r : Result) (d : List Octet) :
    (offerResponse t k r d s).still = s.still := by
  unfold offerResponse; simp

@[simp] theorem respond_still (t k : Octet) (r : Result) (d : List Octet) : (respond t k r d s).still = s.still := by
  unfold respond
  rw [offerResponse_still]
  split
  · exact modMgmt_still s fun m => ⟨rfl, rfl, rfl⟩
  · rfl

@[simp] theorem offerBroadcast_still (leg : Fin 4) : (offerBroadcast leg s).still = s.still := by
  unfold offerBroadcast; dsimp only; split <;> simp

@[simp] theorem offerDrillState_still (leg : Fin 4) : (offerDrillState leg s).still = s.still := by
  unfold offerDrillState; dsimp only; rw [modDrill_still]
  · simp
  · intro d; rfl

@[simp] theorem offerAmp_still (k : Octet) (z : Fin 16) : (offerAmp k z s).still = s.still := by
  unfold offerAmp; simp

/-! ## Zones and claims -/

@[simp] theorem wakeZone_still (z : Fin 16) : (wakeZone z s).still = s.still := by
  unfold wakeZone; rw [modZone_still]
  · simp
  · intro k; rfl

@[simp] theorem abortTestByClaim_still (z : Fin 16) : (abortTestByClaim z s).still = s.still := by
  unfold abortTestByClaim; rw [modMeas_still, modZone_still]; intro k; rfl

@[simp] theorem handOwner_still (z : Fin 16) (n : Option (Fin 13)) : (handOwner z n s).still = s.still := by
  unfold handOwner
  split
  · rfl
  · dsimp only
    split
    · rw [abortTestByClaim_still, modContest_still, modZone_still]; intro k; rfl
    · rw [modContest_still, modZone_still]; intro k; rfl

@[simp] theorem wakeIfWanted_still (z : Fin 16) : (wakeIfWanted z s).still = s.still := by
  unfold wakeIfWanted; dsimp only; split <;> simp

@[simp] theorem stampIdle_still (b : Bool) (z : Fin 16) : (stampIdle b z s).still = s.still := by
  unfold stampIdle
  split
  · rw [modZone_still]; intro k; rfl
  · rfl

@[simp] theorem reevalZone_still (b : Bool) (z : Fin 16) : (reevalZone b z s).still = s.still := by
  unfold reevalZone; simp

@[simp] theorem noteJoined_still (b : State) : (noteJoined b s).still = s.still := rfl

@[simp] theorem reevalZones_still (b : State) (zs : List (Fin 16)) : (reevalZones b zs s).still = s.still := by
  unfold reevalZones
  rw [foldl_still _ (fun t z => reevalZone_still t _ z), noteJoined_still]

@[simp] theorem placeClaim_still (c : Fin 13) (n : Nat) (w : ZoneSet) (st : Word32) :
    (placeClaim c n w st s).still = s.still := by
  unfold placeClaim
  dsimp only
  rw [foldl_still]
  · simp
  · intro t z; rw [modZone_still]; intro k; rfl

@[simp] theorem withdrawClaim_still (c : Fin 13) : (withdrawClaim c s).still = s.still := rfl

/-! ## Generators -/

@[simp] theorem startGen_still (g : Fin 5) (f : Gen → Gen) : (startGen g f s).still = s.still := rfl

@[simp] theorem stopGen_still (g : Fin 5) : (stopGen g s).still = s.still := rfl

@[simp] theorem startBell_still (g : Fin 4) (r : BellReq) : (startBell g r s).still = s.still := by
  unfold startBell
  simp only [reevalZones_still, placeClaim_still]
  refine Eq.trans (modArb_still _ fun _ => rfl) ?_; simp

@[simp] theorem bellDrop_still (r : DropReason) (z : ZoneSet) (p n : Nat) (o : Origin) :
    (bellDrop r z p n o s).still = s.still := by
  unfold bellDrop; simp

@[simp] theorem handOverQueue_still (g : Fin 4) (l : List BellReq) : ∀ s, (handOverQueue g l s).still = s.still := by
  induction l with
  | nil => intro s; rfl
  | cons r l ih =>
    intro s
    unfold handOverQueue
    dsimp only
    split
    · rw [ih, bellDrop_still]; refine Eq.trans (modArb_still _ fun _ => rfl) ?_; exact modArb_still _ fun _ => rfl
    · split
      · rw [ih, bellDrop_still]; refine Eq.trans (modArb_still _ fun _ => rfl) ?_; exact modArb_still _ fun _ => rfl
      · rw [startBell_still]; exact modArb_still _ fun _ => rfl

@[simp] theorem handOver_still (g : Fin 4) : (handOver g s).still = s.still := by
  unfold handOver; split <;> simp

@[simp] theorem chimeRequest_still (p : Fin 8) (n k : Nat) : (chimeRequest p n k s).1.still = s.still := by
  unfold chimeRequest
  dsimp only
  split
  · refine Eq.trans (modArb_still _ fun _ => rfl) ?_; simp [foldl_still _ (fun t g => handOver_still t g)]
  · refine Eq.trans (modArb_still _ fun _ => rfl) ?_; simp [foldl_still _ (fun t g => handOver_still t g)]

/-! ## Pages and bell requests -/

@[simp] theorem becomeLive_still (p : Fin 8) : (becomeLive p s).still = s.still := rfl

@[simp] theorem claimPage_still (p : Fin 8) : (claimPage p s).still = s.still := by
  unfold claimPage; simp

@[simp] theorem askChime_still (p : Fin 8) : (askChime p s).still = s.still := by
  unfold askChime
  dsimp only
  split
  · simp
  · rename_i n _
    have h := chimeRequest_still s p n s.pages[p].priority
    split <;> rename_i e <;> rw [e] at h <;> simpa using h

@[simp] theorem waitOn_still (p : Fin 8) : (waitOn p s).still = s.still := by
  unfold waitOn; split <;> rfl

@[simp] theorem reexamine_still : (reexamine s).still = s.still := by
  unfold reexamine
  exact foldl_still _ (fun t p => by split <;> simp) _ s

@[simp] theorem reevaluate_still (b : State) (zs : List (Fin 16)) : (reevaluate b zs s).still = s.still := by
  unfold reevaluate; simp

@[simp] theorem changeClaim_still (c : Fin 13) (n : Nat) (w : ZoneSet) (st : Word32) :
    (changeClaim c n w st s).still = s.still := by
  unfold changeClaim; simp

@[simp] theorem dropClaim_still (c : Fin 13) : (dropClaim c s).still = s.still := by
  unfold dropClaim; simp

@[simp] theorem handOverFully_still (g : Fin 4) : (handOverFully g s).still = s.still := by
  unfold handOverFully; simp

@[simp] theorem finishBell_still (g : Fin 4) : (finishBell g s).still = s.still := by
  unfold finishBell; simp

@[simp] theorem finishChime_still (g : Fin 4) : (finishChime g s).still = s.still := by
  unfold finishChime
  dsimp only
  split
  · split <;> simp
  · simp

@[simp] theorem stopChime_still (p : Fin 8) : (stopChime p s).still = s.still := by
  unfold stopChime
  split <;> simp

@[simp] theorem endPage_still (p : Fin 8) (c : EndCause) : (endPage p c s).still = s.still := by
  unfold endPage
  dsimp only
  split <;> simp

@[simp] theorem mergeBell_still (g : Fin 4) (z : ZoneSet) : (mergeBell g z s).still = s.still := by
  unfold mergeBell
  dsimp only
  split
  · exact modArb_still _ fun _ => rfl
  · rw [changeClaim_still, modGen_still]; exact modArb_still _ fun _ => rfl

@[simp] theorem meetBellQueue_still (z : ZoneSet) (p n : Nat) (o : Origin) :
    (meetBellQueue z p n o s).1.still = s.still := by
  unfold meetBellQueue
  split
  · exact modArb_still s fun a => rfl
  · split
    · exact modArb_still s fun a => rfl
    · rw [bellDrop_still]; exact modArb_still _ fun _ => rfl

/-- A bell request changes generators, claims, owners, queues and counters. -/
@[simp] theorem bellRequest_still (z : ZoneSet) (p n : Nat) (o : Origin) :
    (bellRequest z p n o s).1.still = s.still := by
  unfold bellRequest
  split
  · simp
  · split <;> simp

/-! ## What a kept part says about a field -/

variable {s} {t : State}

theorem still_tickPhase (h : t.still = s.still) : t.tickPhase = s.tickPhase := by
  have e := congrArg State.tickPhase h; exact e
theorem still_elapsed (h : t.still = s.still) : t.elapsed = s.elapsed := by
  have e := congrArg State.elapsed h; exact e
theorem still_clock (h : t.still = s.still) : t.clock = s.clock := by
  have e := congrArg State.clock h; exact e
theorem still_sched (h : t.still = s.still) : t.sched = s.sched := by
  have e := congrArg State.sched h; exact e
theorem still_detectors (h : t.still = s.still) : t.detectors = s.detectors := by
  have e := congrArg State.detectors h; exact e
theorem still_duckRate (h : t.still = s.still) : t.duckRate = s.duckRate := by
  have e := congrArg State.duckRate h; exact e
theorem still_slotSamples (h : t.still = s.still) : t.slotSamples = s.slotSamples := by
  have e := congrArg State.slotSamples h; exact e
theorem still_testTimeout (h : t.still = s.still) : t.testTimeout = s.testTimeout := by
  have e := congrArg State.testTimeout h; exact e
theorem still_rooms (h : t.still = s.still) : t.rooms = s.rooms := by
  have e := congrArg State.rooms h; exact e
theorem still_roster (h : t.still = s.still) : t.roster = s.roster := by
  have e := congrArg State.roster h; exact e
theorem still_inputs (h : t.still = s.still) : t.inputs = s.inputs := by
  have e := congrArg State.inputs h; exact e
theorem still_table (h : t.still = s.still) : t.table = s.table := by
  have e := congrArg State.table h; exact e
theorem still_disp (h : t.still = s.still) : t.disp = s.disp := by
  have e := congrArg State.disp h; exact e
theorem still_sending (h : t.still = s.still) : t.sending = s.sending := by
  have e := congrArg State.sending h; exact e
theorem still_sent (h : t.still = s.still) : t.sent = s.sent := by
  have e := congrArg State.sent h; exact e
theorem still_pending (h : t.still = s.still) : t.pending = s.pending := by
  have e := congrArg State.pending h; exact e
theorem still_drill (h : t.still = s.still) : { t.drill with owed := 0 } = { s.drill with owed := 0 } := by
  have e := congrArg State.drill h; exact e
theorem still_drillState (h : t.still = s.still) : t.drill.state = s.drill.state := by
  have e := congrArg (fun x => x.drill.state) h; exact e
theorem still_record (h : t.still = s.still) : t.drill.record = s.drill.record := by
  have e := congrArg (fun x => x.drill.record) h; exact e
theorem still_patterns (h : t.still = s.still) : t.arb.patterns = s.arb.patterns := by
  have e := congrArg (fun x => x.arb.patterns) h; exact e
theorem still_draft (h : t.still = s.still) : t.arb.draft = s.arb.draft := by
  have e := congrArg (fun x => x.arb.draft) h; exact e
theorem still_enables (h : t.still = s.still) : t.mgmt.enables = s.mgmt.enables := by
  have e := congrArg (fun x => x.mgmt.enables) h; exact e
theorem still_deferred (h : t.still = s.still) : t.mgmt.deferred = s.mgmt.deferred := by
  have e := congrArg (fun x => x.mgmt.deferred) h; exact e
theorem still_executed (h : t.still = s.still) : t.mgmt.executed = s.mgmt.executed := by
  have e := congrArg (fun x => x.mgmt.executed) h; exact e
theorem still_zone (h : t.still = s.still) (z : Fin 16) : t.zones[z].settings = s.zones[z].settings := by
  have e := congrArg (fun x : State => x.zones[z]) h
  simpa [State.still] using e
theorem still_link (h : t.still = s.still) (p : Fin 5) : t.ports[p].link = s.ports[p].link := by
  have e := congrArg (fun x : State => x.ports[p]) h
  simpa [State.still] using e

end Sys2Proof.Machine
end

