-- ==== Sys2Proof/Laws/Contest.lean ====
section
/-!
SUPPORT. The contest of a frame (R73): what is noted of claims that change, what the end of an event leaves of it, and that
responses and notices, which leave all that `State.silent` keeps, have no part in it.
-/
namespace Sys2Proof.Machine

variable (s : State)

/-! ## Responses and notices -/

@[simp] theorem modMgmt_silent {f : Mgmt → Mgmt}
    (h : ∀ m, (f m).enables = m.enables ∧ (f m).deferred = m.deferred) : (s.modMgmt f).silent = s.silent := by
  obtain ⟨h1, h2⟩ := h s.mgmt
  simp [State.silent, h1, h2]

@[simp] theorem rawOffer_trunk_silent (c : QCell) : (rawOffer trunkPort c s).1.silent = s.silent := by
  simp [State.silent, rawOffer, Port.offer_link]

@[simp] theorem tellTrunkLoss_silent (c : Cell) : (tellTrunkLoss c s).silent = s.silent := by
  unfold tellTrunkLoss
  split
  · exact modMgmt_silent s fun m => ⟨rfl, rfl⟩
  · split
    · exact modMgmt_silent s fun m => ⟨rfl, rfl⟩
    · rfl

@[simp] theorem reportLoss_silent (p : Fin 5) (r : LossReason) (c : Cell) : (reportLoss p r c s).silent = s.silent := by
  unfold reportLoss queueLoss
  split
  · rfl
  · split
    · dsimp only
      split <;> simp
    · rfl

/-- An offer to the upstream queue changes that queue and the counts of what it lost. -/
@[simp] theorem offer_trunk_silent (c : QCell) : (offer trunkPort c s).1.silent = s.silent := by
  have told (x : Cell) (t : State) : (tellLoss trunkPort x t).silent = t.silent := tellTrunkLoss_silent t x
  have refused (x : Cell) (t : State) : (tellRefused trunkPort x t).silent = t.silent := tellTrunkLoss_silent t x
  unfold offer
  dsimp only
  split <;> simp [told, refused]

@[simp] theorem notify_silent (k : NoticeKind) (n : Nat) (d : List Octet) : (notify k n d s).silent = s.silent := by
  unfold notify; split <;> simp

@[simp] theorem respond_silent (t k : Octet) (r : Result) (d : List Octet) : (respond t k r d s).silent = s.silent := by
  unfold respond offerResponse
  rw [offer_trunk_silent]
  split
  · exact modMgmt_silent s fun m => ⟨rfl, rfl⟩
  · rfl

/-! ## What is noted of claims that change -/

/-- What is noted of claims that change stands in the contest, and leaves the zones that changed hands as they were. -/
theorem noteJoined_eq (b : State) : ∃ x y i j k l m, noteJoined b s = s.modContest fun c => { c with
    gained := x, excused := y, now := { c.now with joined := i, cleared := j, fresh := k, eased := l, held := m } } :=
  ⟨_, _, _, _, _, _, _, rfl⟩

/-- A page that waits on changes only what is fresh to it and whether the event holds it. -/
theorem waitOn_eq (p : Fin 8) : ∃ x y, waitOn p s = s.modContest fun c => { c with now := { c.now with fresh := x, held := y } } := by
  unfold waitOn
  split
  · exact ⟨_, _, rfl⟩
  · exact ⟨s.contest.now.fresh, s.contest.now.held, rfl⟩

/-- Outside an event no page waits on in a way that is noted. -/
theorem waitOn_of_now {s : State} (h : s.contest.now = .none) (p : Fin 8) : waitOn p s = s := by
  have e : s.contest.now.held.getLsbD p.val = false := by rw [h]; simp [Arrivals.none]
  unfold waitOn
  rw [e, Bool.false_and]; rfl

theorem contends_isSome (z : Fin 16) (c : Fin 13) : (s.contends z c).isSome = (s.contended c).getLsbD z.val := by
  unfold State.contended; rw [getLsbD_setOf]

theorem mem_contenders {z : Fin 16} {d : Fin 13 × Claim} (h : d ∈ s.contenders z) : s.contends z d.1 = some d.2 := by
  obtain ⟨c, -, h⟩ := List.mem_filterMap.mp h
  obtain ⟨k, hk, rfl⟩ := Option.map_eq_some_iff.mp h
  exact hk

/-- Where the same claimants contend before and after, no better contender made way for any. -/
theorem clearedFor_of_contended (b : State) (h : ∀ c, s.contended c = b.contended c) (c : Fin 13) :
    b.clearedFor s c = 0 := by
  have e : ∀ z d, (s.contends z d).isSome = (b.contends z d).isSome := fun z d => by
    rw [contends_isSome, contends_isSome, h]
  have f (z : Fin 16) : (b.clearedFor s c).getLsbD z.val = false := by
    unfold State.clearedFor
    rw [getLsbD_setOf]
    split
    · rw [List.any_eq_false]
      intro d hd
      have hs := e z d.1
      rw [mem_contenders b hd] at hs
      have hn : (s.contends z d.1).isNone = false := by
        rw [← Option.not_isSome, hs]; rfl
      rw [hn, Bool.false_and]; decide
    · rfl
  ext i hi
  rw [← BitVec.getLsbD_eq_getElem, f ⟨i, hi⟩]
  simp

/-- Where no claimant joins or leaves a zone and no page is freed of a claim, nothing is noted. -/
theorem noteJoined_of_contended (b : State) (h : ∀ c, s.contended c = b.contended c) (he : b.easedBy s = 0) :
    noteJoined b s = s := by
  have e1 : (Vector.ofFn fun c : Fin 13 => s.contest.gained[c]) = s.contest.gained := by ext i hi; simp
  have e2 : (Vector.ofFn fun c : Fin 13 => s.contest.now.joined[c]) = s.contest.now.joined := by ext i hi; simp
  have e3 : (Vector.ofFn fun p : Fin 8 => Vector.ofFn fun c : Fin 13 => s.contest.excused[p][c]) = s.contest.excused := by
    ext i hi j hj; simp
  have e4 : (Vector.ofFn fun c : Fin 13 => s.contest.now.cleared[c]) = s.contest.now.cleared := by ext i hi; simp
  have e5 : (Vector.ofFn fun p : Fin 8 => Vector.ofFn fun c : Fin 13 => s.contest.now.fresh[p][c]) = s.contest.now.fresh := by
    ext i hi j hj; simp
  simp only [noteJoined, h, he, clearedFor_of_contended s b h, without_self, without_zero, BitVec.ofNat_eq_ofNat,
    BitVec.or_self, BitVec.or_zero, ite_self, State.modContest, e1, e2, e3, e4, e5]

/-! ## The end of an event -/

/-- An event that leaves the contest as it was leaves nothing behind for later events. -/
theorem close_of_contest {before after : State} (h : after.contest = before.contest) :
    Contest.close before after after.contest = after.contest := by
  have e1 : (Vector.ofFn fun c : Fin 13 => before.contest.gained[c]) = before.contest.gained := by ext i hi; simp
  have e2 : ∀ p : Fin 8, (Vector.ofFn fun c : Fin 13 => before.contest.excused[p][c]) = before.contest.excused[p] := fun p => by
    ext i hi; simp
  have e3 : (Vector.ofFn fun p : Fin 8 => before.contest.excused[p]) = before.contest.excused := by ext i hi; simp
  simp only [Contest.close, h, without_self, BitVec.or_zero, ite_self, e1, e2, e3]

theorem asEvent_of_contest {act : State → State} (h : (act s).contest = s.contest) : asEvent act s = act s := by
  unfold asEvent
  rw [State.modContest, close_of_contest h]

/-- An event leaves what was in progress before it as it was. -/
@[simp] theorem asEvent_now (act : State → State) : (asEvent act s).contest.now = s.contest.now := rfl

/-- The end of an event reads of the state after it only whether the pages are PENDING. -/
theorem close_of_pages {t u : State} (h : t.pages = u.pages) : Contest.close s t = Contest.close s u := by
  funext k
  simp only [Contest.close, h]

theorem respond_modContest (f : Contest → Contest) (t k : Octet) (r : Result) (d : List Octet) :
    respond t k r d (s.modContest f) = (respond t k r d s).modContest f := by
  have told (c : Cell) (u : State) : tellTrunkLoss c (u.modContest f) = (tellTrunkLoss c u).modContest f := by
    unfold tellTrunkLoss; repeat' split
    all_goals rfl
  have told' (c : Cell) (u : State) : tellLoss trunkPort c (u.modContest f) = (tellLoss trunkPort c u).modContest f :=
    told c u
  have refused (c : Cell) (u : State) : tellRefused trunkPort c (u.modContest f) = (tellRefused trunkPort c u).modContest f :=
    told c u
  have raw (c : QCell) (u : State) : rawOffer trunkPort c (u.modContest f)
      = ((rawOffer trunkPort c u).1.modContest f, (rawOffer trunkPort c u).2) := rfl
  have lost (o : LossReason) (c : Cell) (u : State) :
      reportLoss trunkPort o c (u.modContest f) = (reportLoss trunkPort o c u).modContest f := by
    have e : noticeEnabled .queueLoss (u.modContest f) = noticeEnabled .queueLoss u := rfl
    simp only [reportLoss, queueLoss, e, raw, told, State.modContest_ports, apply_ite (State.modContest · f)]
  have met (c : QCell) (u : State) : (offer trunkPort c (u.modContest f)).1 = (offer trunkPort c u).1.modContest f := by
    simp only [offer, raw]
    cases (rawOffer trunkPort c u).2 <;> simp only [lost, told', refused]
  unfold respond offerResponse
  rw [← met]
  split <;> rfl

/-- An event that ends in a response answers it after all else. -/
theorem asEvent_respond (act : State → State) (t k : Octet) (r : Result) (d : List Octet) :
    asEvent (fun x => respond t k r d (act x)) s = respond t k r d (asEvent act s) := by
  have h : (respond t k r d (act s)).pages = (act s).pages := by
    have e := congrArg State.pages (respond_silent (act s) t k r d)
    exact e
  unfold asEvent
  dsimp only
  rw [respond_modContest, close_of_pages s h]

end Sys2Proof.Machine
end

