-- ==== Sys2Proof/Laws/Queue.lean ====
section
/-!
SUPPORT. The queues and their cells: what gathering, eviction and service select, what an offer answers and what it leaves
alone, and the octets of the cells that the switch makes.
-/
namespace Sys2Proof.Machine

/-! ## Gathering (R169) -/

theorem gatherInto_eq_none (c : Cell) (q : List QCell) :
    gatherInto c q = none ↔ ∀ y ∈ q, gathers c y.cell = false := by
  induction q with
  | nil => simp [gatherInto]
  | cons x xs ih =>
    unfold gatherInto
    cases h : gathers c x.cell <;> simp [h, ih]

/-- Gathering replaces the payload of the first match and nothing else. -/
theorem gatherInto_eq_some {c : Cell} {q q' : List QCell} (h : gatherInto c q = some q') :
    ∃ l x r, q = l ++ x :: r ∧ (∀ y ∈ l, gathers c y.cell = false) ∧ gathers c x.cell = true
      ∧ q' = l ++ { x with cell := { x.cell with payload := c.payload } } :: r := by
  induction q generalizing q' with
  | nil => simp [gatherInto] at h
  | cons x xs ih =>
    unfold gatherInto at h
    split at h
    · next hx => exact ⟨[], x, xs, rfl, by simp, hx, by simpa using h.symm⟩
    · next hx =>
      obtain ⟨w, hw, rfl⟩ := Option.map_eq_some_iff.1 h
      obtain ⟨l, y, r, rfl, hl, hy, rfl⟩ := ih hw
      exact ⟨x :: l, y, r, rfl, List.forall_mem_cons.2 ⟨by simpa using hx, hl⟩, hy, rfl⟩

theorem gatherInto_length {c : Cell} {q q' : List QCell} (h : gatherInto c q = some q') : q'.length = q.length := by
  obtain ⟨l, x, r, rfl, -, -, rfl⟩ := gatherInto_eq_some h
  simp

/-! ## Eviction (R169) and service (R170) -/

theorem takeYoungestOrdinary_eq_none (q : List QCell) :
    takeYoungestOrdinary q = none ↔ ∀ y ∈ q, y.urgent = true := by
  induction q with
  | nil => simp [takeYoungestOrdinary]
  | cons x xs ih =>
    unfold takeYoungestOrdinary
    cases h : takeYoungestOrdinary xs with
    | some r => simp only [reduceCtorEq, List.forall_mem_cons, false_iff, not_and]; intro _ ha; simp [ih.2 ha] at h
    | none =>
      cases hx : x.urgent with
      | true => simp only [if_true, true_iff, List.forall_mem_cons]; exact ⟨hx, ih.1 h⟩
      | false => simp [hx]

theorem takeYoungestOrdinary_eq_some {q rest : List QCell} {x : QCell} (h : takeYoungestOrdinary q = some (x, rest)) :
    ∃ l r, q = l ++ x :: r ∧ rest = l ++ r ∧ x.urgent = false ∧ ∀ y ∈ r, y.urgent = true := by
  induction q generalizing rest with
  | nil => simp [takeYoungestOrdinary] at h
  | cons a xs ih =>
    unfold takeYoungestOrdinary at h
    split at h
    · next y rest' hy =>
      obtain ⟨rfl, rfl⟩ := by simpa using h
      obtain ⟨l, r, rfl, rfl, hx, hr⟩ := ih hy
      exact ⟨a :: l, r, rfl, rfl, hx, hr⟩
    · next hn =>
      cases ha : a.urgent with
      | true => simp [ha] at h
      | false =>
        obtain ⟨rfl, rfl⟩ := by simpa [ha] using h
        exact ⟨[], xs, rfl, rfl, ha, (takeYoungestOrdinary_eq_none xs).1 hn⟩

theorem takeOldestUrgent_eq_none (q : List QCell) : takeOldestUrgent q = none ↔ ∀ y ∈ q, y.urgent = false := by
  induction q with
  | nil => simp [takeOldestUrgent]
  | cons x xs ih =>
    unfold takeOldestUrgent
    cases h : x.urgent <;> simp [h, ih]

theorem takeOldestUrgent_eq_some {q rest : List QCell} {x : QCell} (h : takeOldestUrgent q = some (x, rest)) :
    ∃ l r, q = l ++ x :: r ∧ rest = l ++ r ∧ x.urgent = true ∧ ∀ y ∈ l, y.urgent = false := by
  induction q generalizing rest with
  | nil => simp [takeOldestUrgent] at h
  | cons a xs ih =>
    unfold takeOldestUrgent at h
    cases ha : a.urgent with
    | true =>
      obtain ⟨rfl, rfl⟩ := by simpa [ha] using h
      exact ⟨[], xs, rfl, rfl, ha, by simp⟩
    | false =>
      rw [ha, if_neg (by decide)] at h
      obtain ⟨⟨y, w⟩, hw, he⟩ := Option.map_eq_some_iff.1 h
      obtain ⟨rfl, rfl⟩ := by simpa using he
      obtain ⟨l, r, rfl, rfl, hx, hl⟩ := ih hw
      exact ⟨a :: l, r, rfl, rfl, hx, by simpa [ha] using hl⟩

/-! ## Offers -/

/-- An offer puts no cell into a full queue. -/
theorem Port.offer_length (isLeg : Bool) (cap : Nat) (c : QCell) (p : Port) :
    (p.offer isLeg cap c).1.queue.length ≤ max cap p.queue.length := by
  unfold Port.offer
  split
  · exact Nat.le_max_right _ _
  · split
    · next q hq => simp only [gatherInto_length hq]; exact Nat.le_max_right _ _
    · split
      · next h => simp only [List.length_append, List.length_singleton]; omega
      · split
        · split
          · next lost q hq =>
            obtain ⟨l, r, h1, rfl, -, -⟩ := takeYoungestOrdinary_eq_some hq
            simp only [h1, List.length_append, List.length_cons, List.length_nil]; omega
          · exact Nat.le_max_right _ _
        · exact Nat.le_max_right _ _

/-- The queue alone: an offer touches the port it is made to. -/
theorem rawOffer_other (p o : Fin 5) (h : o ≠ p) (c : QCell) (s : State) :
    (rawOffer p c s).1.ports[o] = s.ports[o] := by
  have hv : ¬ p.val = o.val := fun e => h (Fin.ext e.symm)
  simp [rawOffer, State.modPort, hv]

/-- A cell counts as accepted for its maker when the queue gathered it, appended it, or evicted for it (R169). -/
theorem offer_answer (p : Fin 5) (c : QCell) (s : State) : (offer p c s).2 = (rawOffer p c s).2.accepted := by
  unfold offer
  cases h : (rawOffer p c s).2 <;> simp [h, Met.accepted]

/-- A notice whose enable is off is not made (R183). -/
theorem notify_off {k : NoticeKind} {s : State} (h : noticeEnabled k s = false) (n : Nat) (d : List Octet) :
    notify k n d s = s := by
  unfold notify; rw [h]; rfl

/-! ## Octets of a cell (R161) -/

theorem payloadOf_toList (l : List Octet) : (payloadOf l).toList = (List.range 12).map fun i => l.getD i 0 := by
  apply List.ext_getElem
  · simp
  · intro i h1 h2
    simp [payloadOf]

/-- Octet n of a cell that the switch makes is what stands at that place of its payload, and 0 past its end. -/
theorem mkCell_octet (kind dst tag : Octet) (l : List Octet) {n : Nat} (h4 : 4 ≤ n) (h : n < 16) :
    (mkCell kind dst tag l).octet n = l.getD (n - 4) 0 := by
  have hn : n - 4 < 12 := by omega
  simp only [Cell.octet, mkCell, payloadOf_toList]
  rw [← List.getElem_eq_getD (h := by simpa using hn)]
  simp

end Sys2Proof.Machine
end

