-- ==== Sys2Proof/Tests/Slice0.lean ====
section
/-!
SUPPORT. Tests of the model's own: the terms that WellFormed refuses, cells read from the octets of R162, the worked
sequences and tables of the spec (each test names its section), and for every obligation with hypotheses a state and
operands that meet them.
-/
namespace Sys2Proof.Tests
open Sys2Proof Sys2Proof.Machine

set_option Elab.async false

/-! ## Ill-formed terms are refused -/

/-- A capture record of the line reset. -/
def cap0 : Capture := { elapsed := 0, timeOfDay := 0, day := 0 }

/-- A capture record whose time of day no clock shows. -/
def capBad : Capture := { cap0 with timeOfDay := 86400000 }

/-- A cell from its four header octets and its payload. -/
def cell (kind dst src tag : Octet) (payload : List Octet) : Cell :=
  { kind, dst, src, tag, payload := payloadOf payload }

theorem test_wf_refuses_trunk_cell_capture :
    (Instr.dispatchTrunkCell (cell 0x70 0x85 0x01 0 []) capBad).wf = false := by decide
theorem test_wf_refuses_trunk_cell_that_is_a_command :
    (Instr.dispatchTrunkCell (cell 0x04 0x00 0x01 0 []) cap0).wf = false := by decide
theorem test_wf_refuses_leg_cell_that_is_a_row :
    (Instr.dispatchLegCell 0 (cell 0x2B 0x00 0x85 0 [])).wf = false := by decide
theorem test_wf_refuses_time_capture : (Instr.time 1 0 0 0 false capBad).wf = false := by decide
theorem test_wf_refuses_configure_of_a_row_of_its_own :
    ([1, 2, 9, 10, 14, 29, 30].any fun n => (Instr.configure 1 (BitVec.ofNat 16 n) 0 0).wf) = false := by decide +kernel
theorem test_wf_refuses_known_group : (Instr.readUnknownGroup 1 16 0 false).wf = false := by decide
theorem test_wf_refuses_known_pattern_operation : (Instr.patternWriteUnknownOperation 1 3).wf = false := by decide
theorem test_wf_refuses_known_page_operation : (Instr.pageChangeUnknownOperation 1 0 2 0).wf = false := by decide
theorem test_wf_refuses_known_schedule_operation : (Instr.scheduleWriteUnknownOperation 1 0 1).wf = false := by decide
theorem test_wf_refuses_known_holiday_operation : (Instr.holidayWriteUnknownOperation 1 2).wf = false := by decide
theorem test_wf_refuses_known_roster_operation : (Instr.rosterWriteUnknownOperation 1 0 2 0).wf = false := by decide
theorem test_wf_accepts :
    (Instr.dispatchTrunkCell (cell 0x70 0x85 0x01 0 []) cap0).wf = true
    ∧ (Instr.dispatchLegCell 0 (cell 0x70 0xA5 0x85 0 [])).wf = true ∧ (Instr.time 1 0 0 0 false cap0).wf = true
    ∧ (Instr.configure 1 3 0 0).wf = true ∧ (Instr.readUnknownGroup 1 17 0 false).wf = true := by
  decide +kernel

/-! ## Cells are read as R161 and R162 lay them out; a word of the table spells none -/

theorem test_no_word_spells_a_command : decodeTableWord 128 0x0102 = none := by decide

/-- TIME: Tref 36,183,200 is 0x02281CA0, Dref 412 is 0x019C. -/
theorem test_decode_time :
    decodeTrunkCell (cell 0x01 0x00 0x01 9 [0x02, 0x28, 0x1C, 0xA0, 0x01, 0x9C, 1, 1]) cap0
      = .time 9 36183200 412 1 true cap0 := by decide
theorem test_decode_configure_step_threshold :
    decodeTrunkCell (cell 0x02 0x00 0x01 40 [0, 1, 0, 0, 0x01, 0xF4]) cap0 = .configureStepThreshold 40 500 := by decide
theorem test_decode_read_param :
    decodeTrunkCell (cell 0x03 0x00 0x01 43 [16, 0, 0, 1]) cap0 = .readParam 43 0 true := by decide
theorem test_decode_page_open :
    decodeTrunkCell (cell 0x08 0x00 0x01 7 [2, 5, 0x00, 0xF0, 6, 0, 0b11]) cap0
      = .pageOpen 7 2 5 0x00F0 6 false true true := by decide
theorem test_decode_schedule_entry :
    decodeTrunkCell (cell 0x10 0x00 0x01 7 [3, 0, 0, 0, 0x70, 0x80, 0x9F, 0, 0x0F, 3, 5, 3]) cap0
      = .scheduleWriteEntry 7 3 28800 0x1F 0x000F 3 5 true true := by decide
theorem test_decode_clock_reply :
    decodeLegCell 2 (cell 0x2A 0x00 0xC5 0 [0x02, 0x25, 0x51, 0x00]) = .clockReply 2 5 36000000 := by decide
theorem test_decode_line_result :
    decodeLegCell 1 (cell 0x34 0x00 0x11 0 [3, 20, 4, 112]) = .lineResult 1 3 20 4 112 := by decide
theorem test_decode_room_of_another_leg :
    decodeLegCell 0 (cell 0x2B 0x00 0xA5 0 []) = .dispatchLegCell 0 (cell 0x2B 0x00 0xA5 0 []) := by decide

/-! ## The spec's worked cases -/

/-- The state a command leaves from a state: the one it answers, or the same. -/
def run (c : Instr) (s : State) : State := s.after (exec c s)

/-- The clock of the worked sequences of 1.10: LOCKED, day 412, a Tuesday. -/
def lockedAt (t : Nat) : State := State.reset.modClock fun c =>
  { c with state := .locked, timeOfDay := t, day := 412, weekday := 1, lastAccept := some 0 }

/-- Every link in sync. -/
def linked (s : State) : State :=
  (List.finRange 5).foldl (fun t p => t.modPort p fun x => { x with up := true }) s

/-- A state in a frame in which one event is due. -/
def dueIn (c : Instr) (s : State) : State := s.setDue [c]

/-- The payload octets 5 to 9 of the newest cell of the upstream queue: result and first data octets of a response. -/
def answer (s : State) : List Octet :=
  match s.ports[trunkPort].queue.getLast? with
  | some q => (List.range 5).map fun i => q.cell.octet (5 + i)
  | none => []

/-- 1.3: K is 1000, 2000 and 60000 at the slew rates 60, 30 and 1. -/
theorem test_slew_interval :
    [60, 30, 1].map (fun r => (Clock.reset.setSlewRate r).slewInterval) = [1000, 2000, 60000] := by decide

/-- 1.10, a slew of +870. -/
theorem test_time_slews :
    let t := run (.time 1 36000870 412 1 false ⟨0, 36000000, 412⟩) (lockedAt 36000000)
    t.clock.correction = 870 ∧ t.clock.timeOfDay = 36000000 ∧ answer t = [0, 2, 0, 0, 3] := by decide +kernel

/-- 1.10, a step of +182,700 within the day. -/
theorem test_time_steps :
    let t := run (.time 1 36183200 412 1 false ⟨0, 36000500, 412⟩) (lockedAt 36000500)
    t.clock.timeOfDay = 36183200 ∧ t.clock.day = 412 ∧ t.clock.correction = 0 ∧ t.clock.steps = 1
      ∧ answer t = [0, 1, 0, 2, 0xC9] := by decide +kernel

/-- 1.10, the errors across midnight: cases B, C, D and E. -/
theorem test_step_across_midnight :
    let at_ (t : Nat) (d : Day) (w : Nat) : Clock := { Clock.reset with timeOfDay := t, day := d, weekday := w }
    let after (c : Clock) (tref : Nat) (dref : Day) : Nat × Day × Nat :=
      let x := c.stepBy (timeError tref dref ⟨0, c.timeOfDay, c.day⟩)
      (x.timeOfDay, x.day, x.weekday)
    after (at_ 86399000 100 2) 500 101 = (500, 101, 3) ∧ after (at_ 200 101 3) 86395000 100 = (86395000, 100, 2)
    ∧ after (at_ 43200000 65535 6) 43200000 0 = (43200000, 0, 0)
    ∧ after (at_ 43200000 412 1) 43200000 47 = (43200000, 47, 0)
    ∧ reportedError (timeError 43200000 47 ⟨0, 43200000, 412⟩) = -2147483647 := by decide

/-- 1.10, slew ticks at midnight and at a second boundary: T, D, W and C after. -/
theorem test_slew_ticks :
    let tick (t : Nat) (c : Int) (v : Nat) : Nat × Day × Nat × Int :=
      let x := Clock.tick { Clock.reset with timeOfDay := t, day := 7, weekday := 6, correction := c, slewCounter := v }
      (x.timeOfDay, x.day, x.weekday, x.correction)
    tick 86399998 5 1999 = (0, 8, 0, 4) ∧ tick 86399999 5 1999 = (1, 8, 0, 4)
    ∧ tick 86399999 (-5) 1999 = (86399999, 7, 6, -4) ∧ tick 86399999 (-4) 0 = (0, 8, 0, -4)
    ∧ tick 35999998 1 1999 = (36000000, 7, 6, 0) := by decide

/-- 2.2 and 2.6: increments of 700, 950 and 1000 Hz. -/
theorem test_tone_increments : [700, 950, 1000].map toneIncrement = [5734, 7782, 8192] := by decide

/-- 2.6, the first ten samples of P15. -/
theorem test_first_samples_of_p15 :
    let g := (Gen.reset .drill).start (Pattern.factory 950 (some 700) 0 [⟨.toneA, 40⟩, ⟨.toneB, 40⟩])
    let frames := (List.range 10).map fun n =>
      Gen.sample Arbiter.reset { g with running := true, pattern := 15, phase := BitVec.ofNat 16 (7782 * n) }
    g.increment = 7782 ∧ frames = [16000, 16000, 16000, 16000, 16000, -16000, -16000, -16000, -16000, 16000] := by
  decide +kernel

/-- 2.6: a fourth bell at the same pattern and priority merges into the waiting entry. -/
theorem test_bell_queue_merges :
    let s := State.reset.modArb fun a => { a with queue := [⟨0x0300, 4, 5, .slot 12, 0⟩] }
    let (t, a) := meetBellQueue 0x0C00 4 5 (.slot 13) s
    t.arb.queue = [⟨0x0F00, 4, 5, .slot 12, 0⟩] ∧ a = .queueMerged 0 := by decide +kernel

/-- An entry of the worked banks of 3.9. -/
def entryAt (second : Nat) (zones : ZoneSet) (fired : Option Day) : Entry :=
  { second, days := 0x1F, zones, pattern := 3, priority := 5, holidaySkip := false, catchUp := true, fired }

/-- 3.9, a commit: refused ORDER with index 2 when slot 2 holds 39,000 behind 40,000 in slot 1. -/
theorem test_commit_out_of_order :
    let s := State.reset.modSched fun x => { x with
      bankB := ((x.bankB.set 0 (some (entryAt 28800 0xFFFF none))).set 1 (some (entryAt 40000 0x000F none))).set 2
        (some (entryAt 39000 0xFFFF none)) }
    answer (run (.scheduleCommit 1) s) = [7, 2, 0, 0, 0] := by decide +kernel

/-- 3.9: a commit accepted while LOCKED waits, and a SCHEDULE WRITE meanwhile is BUSY. -/
theorem test_commit_waits :
    let s := run (.scheduleCommit 1) (lockedAt 39999400)
    s.sched.commitPending = true ∧ s.mgmt.deferred = some 1 ∧ answer s = []
      ∧ answer (run (.scheduleWriteEmpty 2 3) s) = [3, 3, 0, 0, 0] := by decide +kernel

/-- R178: a commit made while UNSET offers SCHEDULE-SWAP and then its response; at a second boundary (R49) the deferred
response goes out first. -/
theorem test_order_of_swap_answers :
    let kinds (s : State) := s.ports[trunkPort].queue.map fun q => (q.cell.kind, q.cell.tag)
    kinds (run (.scheduleCommit 9) (linked State.reset)) = [(0x21, 0), (0x20, 9)]
    ∧ (kinds (swapBanks 412 40000 9 (linked State.reset))) = [(0x20, 9), (0x21, 0)] := by decide +kernel

/-- The zone states of 4.7: Z6 is QUIET, the others DAY. -/
def examRoom : State := State.reset.modZone 6 fun z => { z with mode := .quiet }

/-- 4.7: PG2 opens at priority 5 on Z4 to Z7, and Z6 filters it; PG3 at 9 takes Z5, and gives it back when it closes. -/
theorem test_contention :
    let a := run (.pageOpen 1 2 5 0x00F0 0 true false false) examRoom
    let b := run (.pageOpen 2 3 9 0x0020 0 true false false) a
    let c := run (.pageClose 3 3) b
    let owners (s : State) := [s.zones[4].owner, s.zones[5].owner, s.zones[6].owner, s.zones[7].owner]
    owners a = [some 2, some 2, none, some 2] ∧ a.zones[6].filtered = 1
    ∧ owners b = [some 2, some 3, none, some 2] ∧ owners c = owners a := by decide +kernel

/-- 4.7: an all-or-none page waits under an alarm's claim. -/
theorem test_all_or_none_waits :
    let s := (State.reset.setClaim egClaimant (some ⟨15, 0xFFFF, 0, 0⟩)).modZone 8 fun z => { z with owner := some egClaimant }
    let t := run (.pageOpen 1 1 12 0x0F00 6 false true false) s
    t.pages[1].state = .pending ∧ t.claims[1] = none := by decide +kernel

/-- 4.7: the amplifier of Z12 rests after the idle time, AMP REST for slot 0 waiting on L3. -/
theorem test_amplifier_rests :
    let s := (linked State.reset).modZone 12 fun z => { z with mode := .night, idleStamp := 1000000 }
    let t := run .ampRest (dueIn .ampRest { s with elapsed := 1060000 })
    t.zones[12].power = .standby ∧ (t.ports[3].queue.map fun q => (q.cell.kind, q.cell.dst, q.cell.octet 4)) = [(0x31, 0x13, 0)] := by
  decide +kernel

/-- 5.9, the arithmetic at its edges: u and y. -/
theorem test_mix_table :
    [mixUnsaturated 12000 8000 128 96 32, mixUnsaturated 30000 20000 200 128 128, mixUnsaturated (-3) 0 128 0 0,
      mixUnsaturated 5 0 64 0 0, mixUnsaturated (-5) 0 64 0 0, mixUnsaturated 16000 0 255 0 0,
      mixUnsaturated (-16000) 0 255 0 0, mixUnsaturated 16000 4000 255 128 32,
      mixUnsaturated (-32768) (-32768) 255 255 128]
      = [13500, 66875, -3, 3, -2, 31875, -31875, 32875, -130560]
    ∧ [66875, 32875, -130560].map saturate = [32767, 32767, -32768] := by decide

/-- 5.9: D moves by the duck rate toward the depth and stops there. -/
theorem test_duck_ramp :
    let z : Zone := { Zone.reset with owner := some 2, duck := 80, depth := 64 }
    (z.ramp 4).duck = 76 ∧ ({ z with depth := 96 }.ramp 4).duck = 84 ∧ ({ z with duck := 66 }.ramp 4).duck = 64 := by
  decide

/-- 5.7: in one frame, a write of the duck rate that the queue holds before the tick is used by that tick's ramp, and one
that it holds after the tick is not; the elapsed count moves once and before both. -/
theorem test_duck_rate_in_the_frame_of_a_tick :
    let s := { dueIn .millisecondTick (State.reset.modZone 0 fun z => { z with owner := some 0, duck := 80 }) with tickPhase := 7 }
    let write := run (.configure 1 11 10 0)
    let early := run .millisecondTick (write s)
    let late := write (run .millisecondTick s)
    (early.zones[0].duck, early.elapsed) = (70, 1) ∧ (late.zones[0].duck, late.elapsed) = (76, 1) := by decide +kernel

/-- 6.7: LINE RESULT for Z7, number 20, after the test was aborted, is stray. -/
theorem test_late_line_result_is_stray :
    let t := run (.lineResult 1 3 20 4 112) State.reset
    t.meas[1].stray = 1 ∧ t.zones[7].health = .unknown := by decide +kernel

/-- 6.7: SUPERVISE makes the zones PENDING and wakes Z7. -/
theorem test_supervise :
    let s := (linked State.reset).modZone 7 fun z => { z with mode := .night, power := .standby }
    let t := run (.supervise 1 0x00F0) s
    t.zones[4].test = .pending ∧ t.zones[3].test = .none ∧ t.zones[7].power = .waking
      ∧ answer t = [0, 0x00, 0xF0, 0, 0] := by decide +kernel

/-- A poll of a room outstanding on L2. -/
def polled (room : Fin 32) (stamp : Word32) (time : Nat) (now : Word32) : State :=
  { (linked (lockedAt 0)).modPoll 2 fun l => { l with poll := some ⟨room, some ⟨stamp, time⟩, false⟩ } with elapsed := now }

/-- 7.9, one leg through a round: room 0 is 304 ms fast, DRIFTING, and sent a CLOCK SET. -/
theorem test_room_drifts :
    let t := run (.clockReply 2 0 36000310) (polled 0 800500 36000000 800512)
    t.rooms[64].lastError = some 304 ∧ t.rooms[64].state = .drifting ∧ t.rooms[64].corrections = 1
      ∧ t.polls[2].poll = none ∧ (t.ports[2].queue.map fun q => (q.cell.kind, q.cell.dst)) = [(0x29, 0xC0)] := by
  decide +kernel

/-- 7.9, errors near midnight. -/
theorem test_errors_near_midnight :
    let e (time rtt : Nat) (troom : Word32) : Option Int :=
      (run (.clockReply 2 0 troom) (polled 0 0 time (BitVec.ofNat 32 rtt))).rooms[64].lastError
    e 86399990 10 40 = some 45 ∧ e 100 8 86399000 = some (-1104) ∧ e 86399999 3 0 = some 0
      ∧ e 43000000 20 50000000 = some 32767 ∧ e 0 0 43200000 = some (-32767) := by decide +kernel

/-- 7.9: the third miss makes room 12 of L0 STALE. -/
theorem test_third_miss :
    let s := ((State.reset.modRoom 12 fun r => { r with state := .tracking, missed := 2 }).modPoll 0
      fun l => { l with poll := some ⟨12, some ⟨0, 0⟩, false⟩ }).setDue [.replyTimeout]
    let t := run .replyTimeout { s with elapsed := 200 }
    t.rooms[12].missed = 3 ∧ t.rooms[12].state = .stale ∧ t.polls[0].poll = none := by decide +kernel

/-- 8.11: the drill in EVACUATE with rooms 0, 1, 2 and 36, at a drill elapsed time. -/
def evacuation (cleared : Nat) (now : Nat) (l : List MusterEntry) : State :=
  (linked State.reset).modDrill fun d => { d with
    state := .evacuate, elapsed := some now, muster := l
    record := some { byKey := false, tag := some 1, startTime := none, prealert := 30, target := 240, staff := 0x11
                     autoHold := true, evacStart := some 2030000, holdReached := none, holdCause := none
                     endReason := none, musterCount := 4, clearedCount := cleared, lastClear := none
                     allCleared := none, bellsWithheld := 0, faulted := none } }

/-- 8.11: room 1 clears at 65,000 ms. -/
theorem test_room_clears :
    let t := run (.roomClear 0 1) (evacuation 0 65000 [⟨0, none⟩, ⟨1, none⟩, ⟨2, none⟩, ⟨36, none⟩])
    t.drill.muster = [⟨0, none⟩, ⟨1, some 65000⟩, ⟨2, none⟩, ⟨36, none⟩] ∧ t.drill.state = .evacuate
      ∧ (t.drill.record.map (·.clearedCount)) = some 1 := by decide +kernel

/-- 8.11: room 2 is the last of the four, and the drill holds. -/
theorem test_last_room_holds :
    let t := run (.roomClear 0 2) (evacuation 3 232000 [⟨0, some 90400⟩, ⟨1, some 65000⟩, ⟨2, none⟩, ⟨36, some 151000⟩])
    t.drill.state = .hold ∧ t.drill.cause = some .autoHold
      ∧ (t.drill.record.bind (·.holdReached)) = some 232000 := by decide +kernel

/-- 8.11: DRILL START with 30 s, 240 s, staff zones Z0 and Z4: PREALERT, and EG claims them at 14. -/
theorem test_drill_starts :
    let t := run (.drillStart 1 30 240 0x0011 true) (linked (lockedAt 33000000))
    t.drill.state = .prealert ∧ (t.drill.record.bind (·.startTime)) = some (412, 33000000)
      ∧ (t.claims[12].map fun k => (k.priority, k.wanted)) = some (14, 0x0011) ∧ t.gens[4].pattern = 12
      ∧ (t.ports[0].queue.map (·.cell.kind)) = [0x2C] := by decide +kernel

/-- 8.11: the alarm's rising edge aborts the drill. -/
theorem test_alarm_aborts_drill :
    let s := (evacuation 2 70020 [⟨0, some 40000⟩, ⟨1, some 55000⟩, ⟨2, none⟩, ⟨36, none⟩]).modInput 0
      fun x => { x with raw := true, changeStamp := 5070000 }
    let t := run (.inputEdge 0) (dueIn (.inputEdge 0) { s with elapsed := 5070020 })
    t.drill.state = .alarm ∧ (t.drill.record.bind (·.endReason)) = some .alarmAbort
      ∧ (t.drill.record.bind (·.allCleared)) = some false ∧ (t.claims[12].map (·.priority)) = some 15 := by decide +kernel

/-- 8.11: RESET under a standing alarm. -/
theorem test_reset_under_alarm :
    let s := (State.reset.modDrill fun d => { d with state := .alarmSilenced }).modInput 0
      fun x => { x with raw := true, level := true }
    let t := run (.reset 1) { s with elapsed := 6000000 }
    t.drill.state = .idle ∧ t.drill.owed = 0xF ∧ t.inputs[0].level = false ∧ t.inputs[0].changeStamp = 6000000 := by
  decide +kernel

/-- A cell in a queue. -/
def waits (urgent : Bool) (kind dst : Octet) : QCell := ⟨cell kind dst 0 0 [], urgent, .dispatcher⟩

/-- 9.8: the queue of L1. -/
def busyQueue : List QCell :=
  List.replicate 10 (waits false 0x60 0xA0) ++ [waits false 0x29 0xA5, waits true 0x2C 0x21, waits false 0x28 0xA9,
    waits false 0x33 0x11, waits false 0x52 0xAE, waits false 0x52 0xB0]

/-- 9.8, steps 1 to 3: a CLOCK SET is gathered, an urgent cell evicts the youngest ordinary one, an ordinary one is
dropped. -/
theorem test_busy_queue :
    let p : Port := { Port.reset with up := true, queue := busyQueue }
    (p.offer true 16 (waits false 0x29 0xA5)).2 = .gathered
    ∧ (p.offer true 16 (waits true 0x30 0x11)).2 = .evicted (waits false 0x52 0xB0)
    ∧ (p.offer true 16 (waits true 0x30 0x11)).1.queue = busyQueue.take 15 ++ [waits true 0x30 0x11]
    ∧ (p.offer true 16 (waits false 0x61 0xA2)).2 = .dropped := by decide +kernel

/-- 9.8, step 4: the oldest urgent cell departs. -/
theorem test_urgent_departs_first :
    (serve busyQueue).map (fun r => (r.1, r.2.length)) = some (waits true 0x2C 0x21, 15) := by decide +kernel

/-- 9.8: the dispatch table of the worked cells, in EVACUATE. -/
def dispatching : State :=
  (evacuation 0 0 []).modTable fun t => (t.set 0x30 { down := true, up := true, urgent := true, withhold := false }).set
    0x32 { down := false, up := true, urgent := false, withhold := true }

/-- 9.8, cells from the trunk. -/
theorem test_trunk_cells :
    let go (kind dst src : Octet) := run (.dispatchTrunkCell (cell kind dst src 0 []) cap0) dispatching
    ((go 0x70 0x85 0x01).ports[0].queue.map (·.urgent)) = [true] ∧ (go 0x71 0x85 0x01).disp.withheld = 1
    ∧ (go 0x29 0x85 0x01).disp.misaddressed = 1 ∧ (go 0x2A 0x00 0x01).disp.unknown = 1
    ∧ answer (go 0x2A 0x00 0x01) = [12, 0, 0, 0, 0] := by decide +kernel

/-- 9.8, cells from a leg. -/
theorem test_leg_cells :
    let go (kind dst src : Octet) := run (.dispatchLegCell 0 (cell kind dst src 0 [])) dispatching
    (go 0x2B 0x00 0xA5).disp.misaddressed = 1 ∧ (go 0x11 0x00 0x85).disp.misaddressed = 1
    ∧ ((go 0x70 0xA5 0x85).ports[1].queue.map (·.urgent)) = [true] ∧ (go 0x72 0xA5 0x85).disp.tableDropped = 1
    ∧ (go 0x70 0x88 0x85).disp.misaddressed = 1 := by decide +kernel

/-- 10.8, tag 40: S = 500, and C is clamped from 870 to 499. -/
theorem test_threshold_clamps_correction :
    let t := run (.configureStepThreshold 40 500) (State.reset.modClock fun c => { c with correction := 870 })
    t.clock.stepThreshold = 500 ∧ t.clock.correction = 499 ∧ answer t = [0, 0, 1, 0, 0] := by decide +kernel

/-- 10.8, tags 41 and 42: the high threshold is held to 1001 above the low one of 1000; pattern 16 is refused. -/
theorem test_exchange :
    let a := run (.configureDetectorThreshold 41 true 800) State.reset
    let b := run (.configure 42 20 16 0) a
    a.za.detHigh = 1001 ∧ answer a = [1, 0, 9, 0, 0] ∧ b.drill.prealertPattern = 12 ∧ answer b = [5, 0, 0, 0, 0] := by
  decide +kernel

/-- 10.8, tag 43: two parts, 0x02 and 0x12, with executed 4 and refused 1, and the counters cleared. -/
theorem test_read_of_counters :
    let s := State.reset.modMgmt fun m => { m with executed := 3, refused := 1 }
    let t := run (.readParam 43 0 true) s
    (t.ports[trunkPort].queue.map fun q => (List.range 10).map fun i => q.cell.octet (6 + i))
      = [[0x02, 0, 0, 0, 4, 0, 1, 0, 0, 0], [0x12, 0, 0, 0, 0, 0, 0, 0, 0, 0]] ∧ t.mgmt.executed = 0 := by decide +kernel

/-- 4.6: the pieces of R86: with low 256 the high threshold stays above it, with high 2000 the low one below. -/
theorem test_detector_thresholds :
    let s := State.reset.modZa fun z => { z with detLow := 256 }
    (run (.configureDetectorThreshold 1 true 256) s).za.detHigh = 257
    ∧ (run (.configureDetectorThreshold 1 false 3000) State.reset).za.detLow = 1999 := by decide +kernel

/-- PAGE OPEN of a channel for Z0, at a priority. -/
def pageFor (channel prio : Octet) (allOrNone : Bool) : Instr := .pageOpen 1 channel prio 1 0 true allOrNone false

/-- A frame in which nothing arrives. -/
def quietFrame : Instr := .frame ⟨.missing, Vector.replicate 4 .missing, 0⟩

/-- R73: two equals that arrive in one frame for an ownerless zone, in either order; in a later frame the owner stands. -/
theorem test_equals_of_one_frame :
    let one := run (pageFor 3 5 false) State.reset
    (run (pageFor 1 5 false) one).zones[0].owner = some 1
    ∧ (run (pageFor 3 5 false) (run (pageFor 1 5 false) State.reset)).zones[0].owner = some 1
    ∧ (run (pageFor 1 5 false) (run quietFrame one)).zones[0].owner = some 3 := by decide +kernel

/-- R73: page 7 waits for page 2; page 2 closes and a higher page 4 opens in one frame, in either order: page 7 is LIVE,
page 4 owns. A page that opens in the frame before keeps page 7 waiting. -/
theorem test_release_and_higher_claim :
    let s := run quietFrame (run (pageFor 7 5 true) (run quietFrame (run (pageFor 2 5 false) State.reset)))
    let close : Instr := .pageClose 1 2
    let high := pageFor 4 9 false
    let ends (t : State) : Prop := t.pages[7].state = .live ∧ t.claims[7].isSome = true ∧ t.zones[0].owner = some 4
    s.pages[7].state = .pending ∧ ends (run close (run high s)) ∧ ends (run high (run close s))
    ∧ (run close (run quietFrame (run high s))).pages[7].state = .pending := by decide +kernel

/-- Every tone generator plays the bell of an entry at a priority, in step 0 of its first pass. -/
def ringing (pattern prio : Nat) : State :=
  (List.finRange 4).foldl (fun s g => s.modGen (tgGen g) fun x => { x with
    running := true, pattern, priority := prio, repeats := .finite 2, passRepeats := .finite 2, stamp := some 0 }) State.reset

/-- All tone generators RUNNING, TG0 at the end of pattern 14 at 20 ms, for a bell or a chime, with one request of pattern
14 in the bell queue, made at 0 ms for Z0, and a page PENDING for Z0 at priority 5 since 10 ms. -/
def waitsOnTg0 (use : GenUse) (q : Fin 8) (chime : Option Nat) (bell : Nat) : State :=
  let s := ((ringing 3 1).modGen 0 fun g => { g with
    use, pattern := 14, priority := 9, zones := 1, remaining := 0, repeats := .finite 1, stamp := some 0 }).modPage q
      fun g => { g with state := .pending, priority := 5, wanted := 1, allOrNone := true, openStamp := 10, chime }
  dueIn (.generatorStepEnd 0) { s.modArb fun a => { a with queue := [⟨1, 14, bell, .manual, 0⟩] } with elapsed := 20 }

/-- R70, R73, R36: the page released by the end of a bell takes Z0, and keeps it against the older bell of its priority that
the same event starts, through a later re-evaluation and a merge that adds no zone. -/
theorem test_one_event_keeps_owner :
    let s := ((waitsOnTg0 .bell 2 (some 14) 5).setClaim 8 (some ⟨9, 1, 0, 0⟩)).modZone 0 fun z => { z with owner := some 8 }
    let t := run (.generatorStepEnd 0) s
    let u := run (.bellNow 1 1 14 5) t
    t.zones[0].owner = some 2 ∧ t.claims[8] = some ⟨5, 1, 0, 0⟩ ∧ t.pages[2].chimeSkipped = true
    ∧ (run (.supervise 1 1) t).zones[0].owner = some 2 ∧ u.arb.merged = 1 ∧ u.zones[0].owner = some 2 := by decide +kernel

/-- R77: a CHIMING page ends, its generator is handed over to a higher bell, which takes Z0: the page PENDING for Z0 stays
so. -/
theorem test_bell_bars_pending_page :
    let s := (((waitsOnTg0 .chime 3 none 9).modPage 1 fun g => { g with
      state := .chiming, chimeGen := some 0, priority := 5, wanted := 1 }).setClaim 1 (some ⟨5, 1, 0, 0⟩)).modZone 0
        fun z => { z with owner := some 1 }
    let t := run (.pageClose 1 1) s
    t.zones[0].owner = some 8 ∧ t.pages[3].state = .pending ∧ t.pages[1].state = .free := by decide +kernel

/-- R73: a bell that ends frees the PENDING page 2 and hands its generator over to a bell older than pages 1 and 2, which it
equals; page 1, older than page 2, changes to Z0 in the same frame: the bell owns Z0 in either order. -/
theorem test_oldest_of_equals_in_either_order :
    let s := ((((waitsOnTg0 .bell 2 none 5).modPage 1 fun g => { g with
      state := .live, priority := 5, wanted := 2, openStamp := 5 }).setClaim 1 (some ⟨5, 2, 5, 0⟩)).setClaim 8
        (some ⟨9, 1, 0, 0⟩)).modZone 0 fun z => { z with owner := some 8 }
    let change := run (.pageChangeWrite 1 1 1)
    let ends := fun t => run (.generatorStepEnd 0) (dueIn (.generatorStepEnd 0) t)
    let decided (t : State) : Prop := t.zones[0].owner = some 8 ∧ t.claims[8] = some ⟨5, 1, 0, 0⟩ ∧ t.pages[2].state = .live
    decided (ends (change s)) ∧ decided (change (ends s)) ∧ (ends s).zones[0].owner = some 2 := by decide +kernel

/-- R77: page 3 waits for Z0, of the CHIMING page 1, and for Z1, of page 4; both end in one frame, and the end of page 1 hands
its generator over to a higher bell, which takes Z0: page 3 stays PENDING in either order. -/
theorem test_bell_bars_page_of_two_zones :
    let s := (((((waitsOnTg0 .chime 3 none 9).modPage 3 fun g => { g with wanted := 3 }).modPage 1 fun g => { g with
      state := .chiming, chimeGen := some 0, priority := 5, wanted := 1 }).modPage 4 fun g => { g with
      state := .live, priority := 5, wanted := 2 }).setClaim 1 (some ⟨5, 1, 0, 0⟩)).setClaim 4 (some ⟨5, 2, 0, 0⟩)
    let s := (s.modZone 0 fun z => { z with owner := some 1 }).modZone 1 fun z => { z with owner := some 4 }
    let p := run (.pageClose 1 1)
    let x := run (.pageClose 1 4)
    let decided (t : State) : Prop := t.zones[0].owner = some 8 ∧ t.zones[1].owner = none ∧ t.pages[3].state = .pending
    decided (x (p s)) ∧ decided (p (x s)) := by decide +kernel

/-- Page 2, with a chime, for Z2, and page 3 for Z0, both PENDING since 0 ms, wait for the bell of TG0, which owns Z0 and Z2; a
bell of a priority waits for Z0. -/
def chimeAmongPending (bell : Nat) : State :=
  (((((waitsOnTg0 .bell 2 (some 14) bell).modPage 2 fun g => { g with wanted := 4, openStamp := 0 }).modPage 3 fun g => { g with
    state := .pending, priority := 5, wanted := 1, allOrNone := true, openStamp := 0 }).setClaim 8 (some ⟨9, 5, 0, 0⟩)).modZone 0
      fun z => { z with owner := some 8 }).modZone 2 fun z => { z with owner := some 8 }

/-- R73, R77: the end of the bell releases page 2, whose chime request hands the generator over to a bell on Z0; page 3 stays
PENDING, and another event of the frame that withdraws no claim does not start it: not a PAGE OPEN, in either order, though
page 3 would be better than the bell at equal priority, nor a ZONE MODE of no zone. -/
theorem test_bell_of_released_chime_bars_page :
    let ends := fun t => run (.generatorStepEnd 0) (dueIn (.generatorStepEnd 0) t)
    let decided (t : State) : Prop := t.zones[0].owner = some 8 ∧ t.pages[2].state = .live ∧ t.pages[3].state = .pending
    (let s := chimeAmongPending 5
     let openD := run (pageFor 5 3 false)
     decided (openD (ends s)) ∧ decided (ends (openD s)))
    ∧ (let s := chimeAmongPending 9
       decided (ends s) ∧ decided (run (.zoneMode 1 0 0) (ends s))) := by decide +kernel

/-- R73, R77: the same where page 3 waits for page 6 at Z1 as well, and page 6 closes in the frame, in either order. -/
theorem test_bell_of_released_chime_bars_page_of_two_zones :
    let s := ((((chimeAmongPending 9).modPage 3 fun g => { g with wanted := 3 }).modPage 6 fun g => { g with
      state := .live, priority := 5, wanted := 2 }).setClaim 6 (some ⟨5, 2, 0, 0⟩)).modZone 1 fun z => { z with owner := some 6 }
    let ends := fun t => run (.generatorStepEnd 0) (dueIn (.generatorStepEnd 0) t)
    let close := run (.pageClose 1 6)
    let decided (t : State) : Prop := t.zones[0].owner = some 8 ∧ t.pages[2].state = .live ∧ t.pages[3].state = .pending
    decided (close (ends s)) ∧ decided (ends (close s)) := by decide +kernel

/-! ## States and operands that meet the hypotheses of the obligations -/

/-- Every queue filled with ordinary cells to a length. -/
def crowded (n : Nat) (s : State) : State :=
  (List.finRange 5).foldl (fun t p => t.modPort p fun x => { x with queue := List.replicate n (waits false 0x60 0xA0) }) s

theorem witness_StepRunsFrontCommand :
    (State.reset.enqueueFront (.reset 1)).pending = .reset 1 :: [] ∧ State.reset.pending = [] := by decide

theorem witness_CommandsCountExecuted :
    decodeCommand (cell 0x04 0 1 5 []) cap0 = some (.reset 5) ∧ (∀ tag item clear, Instr.reset 5 ≠ .readParam tag item clear) :=
  ⟨by decide, fun _ _ _ => nofun⟩

theorem witness_QueuesStayBounded :
    let s := (crowded 16 State.reset).enqueueFront (.reset 1)
    QueuesOk s ∧ (match step s with | .next _ => true | _ => false) = true := by decide +kernel

theorem witness_ClockStaysInRange :
    let s := dueIn .clockTick { (lockedAt 86399999).modClock fun c =>
      { c with slewCounter := 1999, correction := -1999, framePhase := 7, holdoverLimit := 3600, frameTrim := -200 } with
      tickPhase := 7, pending := [.clockTick] }
    ClockOk s ∧ (match step s with | .next _ => true | _ => false) = true := by decide +kernel

/-- Eight bell requests. -/
def fullBells : List BellReq := (List.range 8).map fun n => ⟨1, n, 5, .manual, 0⟩

theorem witness_ListsStayBounded :
    let s := (((State.reset.modArb fun a => { a with queue := fullBells }).modSched fun x =>
      { x with holidays := (List.range 32).map fun n => BitVec.ofNat 16 n })).enqueueFront (.holidayWriteAdd 1 99)
    ListsOk s ∧ (match step s with | .next _ => true | _ => false) = true := by decide +kernel

theorem witness_QueueMeetsOffer :
    let up : Port := { Port.reset with up := true }
    let l := List.replicate 10 (waits false 0x60 0xA0)
    let set := waits false 0x29 0xA5
    let bell := waits true 0x30 0x11
    (Port.reset.up = false)
    ∧ ({ up with queue := l ++ set :: [] }.queue = l ++ set :: [] ∧ (∀ y ∈ l, gathers set.cell y.cell = false)
        ∧ gathers set.cell set.cell = true)
    ∧ ((∀ y ∈ List.replicate 15 set, gathers bell.cell y.cell = false) ∧ (List.replicate 15 set).length < 16)
    ∧ ((∀ y ∈ busyQueue, gathers bell.cell y.cell = false) ∧ 16 ≤ busyQueue.length
        ∧ busyQueue = busyQueue.take 15 ++ waits false 0x52 0xB0 :: [] ∧ (waits false 0x52 0xB0).urgent = false
        ∧ bell.urgent = true)
    ∧ ((∀ y ∈ List.replicate 16 bell, gathers bell.cell y.cell = false) ∧ ∀ y ∈ List.replicate 16 bell, y.urgent = true)
    ∧ (∀ y ∈ busyQueue, gathers (waits false 0x61 0xA2).cell y.cell = false) := by decide +kernel

theorem witness_ResponseGoesUpstream :
    let fields : List Octet := List.replicate 135 7
    (crowded 31 State.reset).ports[trunkPort].queue.length < 32
    ∧ (crowded 17 State.reset).ports[trunkPort].queue.length + max 1 ((fields.length + 8) / 9) ≤ 32
    ∧ max 1 ((fields.length + 8) / 9) ≤ 15 := by decide +kernel

/-- The port of L1 about to take one cell from its queue. -/
def departing (q : QCell) (s : State) : State :=
  dueIn (.cellDeparture 1) ((linked s).modPort 1 fun x => { x with queue := [q] })

theorem witness_CellDeparts :
    let meets (q : QCell) (s : State) := s.IsDue (.cellDeparture 1) ∧ s.ports[1].up = true ∧ s.ports[1].tx = none
      ∧ serve s.ports[1].queue = some (q, [])
    let drill (st : Octet) : QCell := ⟨cell 0x2C 0x21 0 0 [st], true, .dispatcher⟩
    let poll : Poll := { room := 31, departed := none, voided := false }
    let test : QCell := ⟨cell 0x33 0x11 0 0 [2, 19], false, .dispatcher⟩
    serve [] = none ∧ (serve busyQueue).isSome = true ∧ (serve [waits false 0x60 0xA0]).isSome = true
    ∧ (meets (waits false 0x29 0xA5) (departing (waits false 0x29 0xA5) (lockedAt 86399999))
      ∧ (waits false 0x29 0xA5).cell.kind = kindClockSet)
    ∧ (meets (drill 6) (departing (drill 6) State.reset) ∧ (drill 6).cell.kind = kindDrillState
      ∧ ((drill 6).cell.octet 4).toNat ∈ [0, 5, 6])
    ∧ (let s := departing (drill 2) (evacuation 0 2147483647 [])
       meets (drill 2) s ∧ ((drill 2).cell.octet 4).toNat ∈ [1, 2, 3, 4] ∧ s.drill.elapsed = some 2147483647)
    ∧ (let s := departing (waits false 0x28 0xBF) ((lockedAt 0).modPoll 1 fun l => { l with poll := some poll })
       meets (waits false 0x28 0xBF) s ∧ (1 : Fin 5) = legPort 1 ∧ (waits false 0x28 0xBF).cell.kind = kindClockPoll
       ∧ s.polls[(1 : Fin 4)].poll = some poll)
    ∧ (let s := departing test (State.reset.modMeas 1 fun m => { m with zone := some 2, number := 19 })
       meets test s ∧ test.cell.kind = kindLineTest ∧ s.meas[(1 : Fin 4)].number = test.cell.octet 5)
    ∧ ((waits false 0x60 0xA0).cell.kind ≠ kindClockSet ∧ (waits false 0x60 0xA0).cell.kind ≠ kindDrillState
      ∧ (waits false 0x60 0xA0).cell.kind ≠ kindClockPoll ∧ (waits false 0x60 0xA0).cell.kind ≠ kindLineTest) := by
  refine ⟨?_, ?_, ?_, ?_, ?_, ?_, ?_, ?_, ?_⟩ <;> decide +kernel

theorem witness_TrunkSyncChanges :
    (dueIn .trunkSyncLoss (linked State.reset)).IsDue .trunkSyncLoss
    ∧ (dueIn .trunkSyncGain State.reset).IsDue .trunkSyncGain ∧ State.reset.ports[trunkPort].assembler.pieces = [] := by
  decide +kernel

theorem witness_LegSyncChanges :
    let d := dueIn (.legDown 1) (crowded 16 (linked State.reset))
    let s := dueIn (.legUp 3) (crowded 14 State.reset)
    (d.IsDue (.legDown 1) ∧ d.NoPending)
    ∧ (s.IsDue (.legUp 3) ∧ s.ports[legPort 3].queue.length ≤ 14
      ∧ ∀ c ∈ s.ports[legPort 3].queue, ¬(c.cell.kind = kindClockSet ∧ c.cell.dst = broadcastAddr 3)) := by decide +kernel

theorem witness_MillisecondTickEffect :
    let s := dueIn .millisecondTick ((State.reset.modZone 0 fun z => { z with duck := 128 }).modZone 1 fun z =>
      { z with duck := 32, owner := some 0 })
    s.due.contains .millisecondTick = true ∧ s.tickPhase ≠ 7
    ∧ ({ s with tickPhase := 7 }.due.contains .millisecondTick = true ∧ { s with tickPhase := 7 }.tickPhase = 7)
    ∧ s.zones[0].duck = 128 ∧ s.zones[0].owner = none ∧ s.zones[1].duck = s.zones[1].depth := by decide +kernel

theorem witness_ClockTickAdvance :
    let s := dueIn .clockTick ((lockedAt 86399999).modClock fun c => { c with slewCounter := 1999, correction := 1, weekday := 6 })
    let t := dueIn .clockTick ((lockedAt 0).modClock fun c => { c with slewCounter := 1998 })
    (s.IsDue .clockTick ∧ s.clock.timeOfDay < 86400000 ∧ s.clock.weekday < 7 ∧ s.clock.slewCounter < s.clock.slewInterval
      ∧ s.clock.slewCounter + 1 = s.clock.slewInterval)
    ∧ (t.IsDue .clockTick ∧ t.clock.timeOfDay < 86400000 ∧ t.clock.weekday < 7
      ∧ t.clock.slewCounter + 1 < t.clock.slewInterval) := by decide +kernel

theorem witness_StepThresholdHoldsCorrection :
    let s (k : Int) := lockedAt 0 |>.modClock fun c => { c with correction := k }
    (let t := (s (-1999)).enqueueFront (.configureStepThreshold 1 100)
     t.clock.correction.natAbs < t.clock.stepThreshold ∧ (match step t with | .next _ => true | _ => false) = true)
    ∧ ((s 99).clock.correction.natAbs < (max 100 (min 60000 (0 : Word32).toInt)).toNat)
    ∧ ((max 100 (min 60000 (0 : Word32).toInt)).toNat ≤ (s 100).clock.correction.natAbs)
    ∧ (s 870).clock.correction = 870 ∧ (s (-870)).clock.correction = -870 := by decide +kernel

theorem witness_ClockStateChanges :
    let s := dueIn .holdoverExpiry { lockedAt 0 with elapsed := 300000 }
    (86400000 ≤ (86400000 : Word32).toNat ∧ 6 < (7 : Octet).toNat)
    ∧ ((86399999 : Word32).toNat < 86400000 ∧ (6 : Octet).toNat ≤ 6 ∧ State.reset.Settled
      ∧ State.reset.clock.state = .unset)
    ∧ (s.IsDue .holdoverExpiry ∧ s.clock.state = .locked ∧ s.clock.lastAccept = some 0
      ∧ s.clock.holdoverLimit * 1000 ≤ (s.elapsed - 0).toNat) := by decide +kernel

theorem witness_TimeCorrectsTheClock :
    let s := lockedAt 36000000
    let e (tref : Word32) : Int := ((412 : Day) - 412).toInt * 86400000 + ((tref.toNat : Int) - 36000000)
    s.Settled ∧ s.clock.state ≠ .unset ∧ (36002000 : Word32).toNat < 86400000 ∧ (1 : Octet).toNat ≤ 6
    ∧ (e 36001999).natAbs < s.clock.stepThreshold ∧ s.clock.stepThreshold ≤ (e 36002000).natAbs
    ∧ (let u := crowded 15 (polled 31 0 0 0)
       u.ports[legPort 2].up = true ∧ u.ports[legPort 2].queue.length < 16)
    ∧ s.ports[legPort 2].up = false := by decide +kernel

/-- A generator that plays a factory pattern, at the end of a step. -/
def playing (g : Fin 5) (pattern step : Nat) (r : Repeats) (held : Bool) : State :=
  dueIn (.generatorStepEnd g) (State.reset.modGen g fun x =>
    { x with running := true, held, pattern, stepIndex := step, remaining := 0, repeats := r })

theorem witness_GeneratorStepEnds :
    let p := Pattern.factory 1000 none 0 [⟨.toneA, 75⟩, ⟨.silence, 25⟩, ⟨.toneA, 75⟩, ⟨.silence, 125⟩]
    let meets (s : State) := s.IsDue (.generatorStepEnd 0) ∧ s.gens[0].running = true ∧ s.gens[0].remaining = 0
      ∧ s.arb.pattern s.gens[0].pattern = some p
    (meets (playing 0 13 0 .continuous false) ∧ p.steps[0 + 1]? = some ⟨.silence, 25⟩)
    ∧ 3 + 1 = p.steps.length ∧ p.steps[0]? = some ⟨.toneA, 75⟩
    ∧ (meets (playing 0 13 3 .continuous false) ∧ (playing 0 13 3 .continuous false).gens[0].repeats = .continuous)
    ∧ (meets (playing 0 13 3 (.finite 2) false) ∧ (playing 0 13 3 (.finite 2) false).gens[0].repeats = .finite 2 ∧ 1 < 2)
    ∧ (meets (playing 0 13 3 (.finite 1) true) ∧ (playing 0 13 3 (.finite 1) true).gens[0].held = true
        ∧ (playing 0 13 3 (.finite 1) true).gens[0].repeats = .finite 1) := by decide +kernel

theorem witness_GeneratorFinishes :
    let p := Pattern.factory 880 none 1 [⟨.toneA, 200⟩]
    let s := playing (tgGen 3) 14 0 (.finite 1) false
    let r : BellReq := ⟨1, 14, 5, .slot 127, 0⟩
    let q := { s.modArb fun a => { a with queue := [r] } with elapsed := 5000 }
    let c := (s.modGen (tgGen 3) fun g => { g with use := .chime, page := some 7 }).modPage 7 fun g =>
      { g with state := .chiming, chimeGen := some 3 }
    let t := (playing egGen 14 0 (.finite 1) false).modDrill fun d => { d with state := .allclear }
    let ends (u : State) : Prop := u.IsDue (.generatorStepEnd (tgGen 3)) ∧ u.gens[tgGen 3].running = true
      ∧ u.gens[tgGen 3].remaining = 0 ∧ u.arb.pattern u.gens[tgGen 3].pattern = some p
      ∧ p.steps.length ≤ u.gens[tgGen 3].stepIndex + 1 ∧ u.gens[tgGen 3].repeats = .finite 1
      ∧ u.gens[tgGen 3].held = false ∧ u.NoPending
    (ends s ∧ s.gens[tgGen 3].use = .bell ∧ s.arb.queue = [])
    ∧ (ends q ∧ q.gens[tgGen 3].use = .bell ∧ q.arb.queue = r :: [] ∧ (q.elapsed - r.stamp).toNat ≤ q.arb.lateLimit
      ∧ q.arb.pattern r.pattern = some p)
    ∧ (ends c ∧ c.gens[tgGen 3].use = .chime ∧ c.gens[tgGen 3].page = some 7 ∧ c.pages[(7 : Fin 8)].state = .chiming
      ∧ c.pages[(7 : Fin 8)].chimeGen = some 3 ∧ c.arb.queue = [])
    ∧ (t.IsDue (.generatorStepEnd egGen) ∧ t.gens[egGen].running = true ∧ t.gens[egGen].remaining = 0
      ∧ t.arb.pattern t.gens[egGen].pattern = some p ∧ p.steps.length ≤ t.gens[egGen].stepIndex + 1
      ∧ t.gens[egGen].repeats = .finite 1 ∧ t.gens[egGen].held = false ∧ t.drill.state = .allclear) := by decide +kernel

theorem witness_BellNowResult :
    let p := Pattern.factory 880 none 1 [⟨.toneA, 200⟩]
    let s := State.reset
    let alarmed := State.reset.modDrill fun d => { d with state := .prealert }
    let merges (t : State) (h : Fin 4) : Prop := t.gens[tgGen h].running = true ∧ t.gens[tgGen h].use = .bell
      ∧ t.gens[tgGen h].pattern = 14 ∧ t.gens[tgGen h].priority = 13 ∧ t.gens[tgGen h].stepIndex = 0
      ∧ t.gens[tgGen h].repeats = t.gens[tgGen h].passRepeats
    let ready (t : State) : Prop := t.Settled ∧ t.NoPending ∧ t.drill.state = .idle ∧ t.arb.pattern 14 = some p
    15 < (16 : Octet).toNat ∧ (14 : Octet).toNat ≤ 15 ∧ (1 : ZoneSet) ≠ 0
    ∧ alarmed.settle.drill.state ≠ .idle ∧ s.settle.drill.state = .idle ∧ s.settle.arb.pattern 0 = none ∧ ready s
    ∧ (let t := playing 0 15 0 .continuous false
       ready t ∧ (∀ h, ¬merges t h) ∧ t.gens[tgGen 1].running = false ∧ ∀ h : Fin 4, h < 1 → t.gens[tgGen h].running = true)
    ∧ (let t := (ringing 14 13).modGen 0 fun g => { g with stepIndex := 1 }
       ready t ∧ merges t 1 ∧ (∀ h : Fin 4, h < 1 → ¬merges t h) ∧ t.gens[tgGen 1].stamp = some 0
       ∧ t.gens[tgGen 1].zones ||| 1 ≠ t.gens[tgGen 1].zones)
    ∧ (let t := ((ringing 14 13).modGen 0 fun g => { g with stepIndex := 1 }).modGen 1 fun g => { g with zones := 1 }
       ready t ∧ merges t 1 ∧ (∀ h : Fin 4, h < 1 → ¬merges t h) ∧ t.gens[tgGen 1].stamp = some 0
       ∧ t.gens[tgGen 1].zones ||| 1 = t.gens[tgGen 1].zones)
    ∧ (let t := ringing 14 12
       ready t ∧ (∀ h, ¬merges t h) ∧ (∀ g : Fin 4, t.gens[tgGen g].running = true)
       ∧ (meetBellQueue 1 14 13 .manual (t.begun (.bellNow 1 1 14 13))).2 = .queued 0)
    ∧ (let t := (ringing 14 12).modArb fun a => { a with queue := [⟨2, 14, 13, .manual, 0⟩] }
       (∀ h, ¬merges t h) ∧ (meetBellQueue 1 14 13 .manual (t.begun (.bellNow 1 1 14 13))).2 = .queueMerged 0)
    ∧ (let t := (ringing 14 12).modArb fun a => { a with queue := fullBells }
       (∀ h, ¬merges t h) ∧ (meetBellQueue 1 14 13 .manual (t.begun (.bellNow 1 1 14 13))).2 = .dropped) := by
  refine ⟨?_, ?_, ?_, ?_, ?_, ?_, ?_, ?_, ?_, ?_, ?_, ?_, ?_⟩ <;> decide +kernel

theorem witness_BellQueueMeetsRequest :
    let s := State.reset.modArb fun a => { a with queue := fullBells }
    let t := State.reset.modArb fun a => { a with queue := fullBells.take 7 }
    let head (pattern : Nat) (now : Word32) : State :=
      { State.reset.modArb fun a => { a with queue := ⟨1, pattern, 5, .manual, 0⟩ :: fullBells.take 7 } with elapsed := now }
    let idle (u : State) (r : BellReq) (now : Nat) : Prop := u.gens[tgGen 3].running = false
      ∧ u.arb.queue = r :: fullBells.take 7 ∧ (u.elapsed - r.stamp).toNat = now
    (s.arb.queue = fullBells.take 7 ++ ⟨1, 7, 5, .manual, 0⟩ :: []
      ∧ ∀ x ∈ fullBells.take 7, ¬(x.pattern = 7 ∧ x.priority = 5))
    ∧ ((∀ x ∈ t.arb.queue, ¬(x.pattern = 7 ∧ x.priority = 5)) ∧ t.arb.queue.length < 8)
    ∧ ((∀ x ∈ s.arb.queue, ¬(x.pattern = 7 ∧ x.priority = 6)) ∧ 8 ≤ s.arb.queue.length)
    ∧ (ringing 14 12).gens[tgGen 3].running = true ∧ State.reset.arb.queue = []
    ∧ (idle (head 15 5001) ⟨1, 15, 5, .manual, 0⟩ 5001 ∧ (head 15 5001).arb.lateLimit < 5001)
    ∧ (idle (head 11 5000) ⟨1, 11, 5, .manual, 0⟩ 5000 ∧ 5000 ≤ (head 11 5000).arb.lateLimit
      ∧ (head 11 5000).arb.pattern 11 = none)
    ∧ (idle (head 15 5000) ⟨1, 15, 5, .manual, 0⟩ 5000 ∧ ((head 15 5000).arb.pattern 15).isSome = true) := by decide +kernel

/-- A draft of two steps for P15. -/
def draftOf (steps : List (Option PatStep)) : Draft :=
  { target := 15, toneA := 100, toneB := none, amplitude := 1, inverted := false, repeatCount := 0, steps }

/-- The machine with a draft. -/
def drafting (steps : List (Option PatStep)) : State := State.reset.modArb fun a => { a with draft := some (draftOf steps) }

theorem witness_PatternWriteResults :
    let one : Option PatStep := some ⟨.toneA, 1⟩
    let s := drafting [one]
    let busy := playing 4 15 0 .continuous true
    let both := busy.modArb fun a => { a with draft := some (draftOf [one]) }
    15 < (16 : Octet).toNat ∧ (15 : Octet).toNat ≤ 15 ∧ State.reset.settle.arb.draft = none
    ∧ (s.settle.arb.draft = some (draftOf [one]) ∧ (draftOf [one]).target = (15 : Fin 16).val
      ∧ (∀ x ∈ [one], x.isSome = true)
      ∧ ∀ g : Fin 5, s.settle.gens[g].running = true → s.settle.gens[g].pattern ≠ 15)
    ∧ ((drafting [one, none]).settle.arb.draft = some (draftOf [one, none]) ∧ (draftOf [one, none]).steps[1]? = some none
      ∧ ∀ k < 1, ((draftOf [one, none]).steps[k]?.bind id).isSome = true)
    ∧ (both.settle.arb.draft = some (draftOf [one]) ∧ both.settle.gens[4].running = true
      ∧ both.settle.gens[4].pattern = (draftOf [one]).target)
    ∧ (15 : Octet).toNat = (15 : Fin 16).val
    ∧ (∀ g : Fin 5, State.reset.settle.gens[g].running = true → State.reset.settle.gens[g].pattern ≠ 15)
    ∧ busy.settle.gens[4].running = true ∧ busy.settle.gens[4].pattern = (15 : Octet).toNat := by decide +kernel

theorem witness_PatternStepsFill :
    let s := drafting (List.replicate 8 none)
    let d := draftOf (List.replicate 8 none)
    let words (w : Word16) : Vector Word16 4 := Vector.replicate 4 w
    State.reset.settle.arb.draft = none ∧ s.settle.arb.draft = some d
    ∧ d.steps.length < (5 : Octet).toNat + (3 : Fin 4).val + 1
    ∧ (3 ≤ (words 0xC000)[(0 : Fin 4)].toNat / 16384 ∧ (0 : Fin 4) ≤ 0)
    ∧ ((words 0x4001)[(0 : Fin 4)].toNat / 16384 = 1 ∧ d.toneB = none)
    ∧ ((4 : Octet).toNat + (3 : Fin 4).val + 1 ≤ d.steps.length
      ∧ ∀ j : Fin 4, j ≤ 3 → (words 0x8000)[j].toNat / 16384 < 3
          ∧ ((words 0x8000)[j].toNat / 16384 = 1 → d.toneB.isSome = true)) := by decide +kernel

theorem witness_FrameBegins :
    let s := (lockedAt 0).modClock fun c => { c with framePhase := 7 }
    State.reset.due = [] ∧ State.reset.tickPhase < 7 ∧ State.reset.clock.state = .unset
    ∧ (s.due = [] ∧ s.clock.state ≠ .unset ∧ (lockedAt 0).clock.framePhase < 7)
    ∧ State.reset.ports[0].tx = none ∧ { State.reset with clipDue := 1 }.clipDue.getLsbD 0 = true
    ∧ (State.reset.modPort 0 fun x => { x with tx := some ⟨cell 0x60 0xA0 1 0 [], 3⟩ }).ports[0].tx
        = some ⟨cell 0x60 0xA0 1 0 [], 3⟩ := by decide +kernel

theorem witness_FramesCounted :
    let f (flags : Word16) : LegFrame := { control := 0x35A0 ||| flags, fragment := Vector.replicate 4 0x70 }
    let g : TrunkFrame := { control := 0x6D33, samples := Vector.replicate 8 0, fragment := Vector.replicate 4 0 }
    let x : FrameInput :=
      { trunk := .arrived true g, legs := (Vector.replicate 4 .missing).set 3 (.arrived false (f 1)), contacts := 0 }
    let three : List Fragment := [(f 0).fragment, (f 0).fragment, (f 0).fragment]
    let s := (linked State.reset).modPort 3 fun p => { p with assembler := { p.assembler with pieces := three } }
    s.due = [] ∧ s.ports[3].up = true ∧ State.reset.ports[3].up = false
    ∧ ((3 : Fin 5) = legPort 3 ∧ x.legs[(3 : Fin 4)] = .arrived false (f 1) ∧ (f 1).control.toNat / 16 = 0x35A
      ∧ (f 1).control.toNat % 4 = 1 ∧ s.ports[3].assembler.pieces = three)
    ∧ (x.trunk = .arrived true g ∧ g.control.toNat / 16 = 0x6D3 ∧ g.control.toNat % 4 = 3)
    ∧ x.legs[(0 : Fin 4)] = .missing := by decide +kernel

theorem witness_FrameAudioMix :
    let f : TrunkFrame := { control := 0x6D30, samples := Vector.replicate 8 0x8000, fragment := Vector.replicate 4 0 }
    let s := linked (playing 0 15 0 .continuous false)
    let p := Pattern.factory 950 (some 700) 0 [⟨.toneA, 40⟩, ⟨.toneB, 40⟩]
    State.reset.due = [] ∧ s.ports[trunkPort].up = true ∧ f.control.toNat / 16 = 0x6D3
    ∧ State.reset.ports[trunkPort].up = false
    ∧ (s.gens[0].running = true ∧ s.arb.pattern s.gens[0].pattern = some p ∧ p.steps[s.gens[0].stepIndex]? = some ⟨.toneA, 40⟩)
    ∧ State.reset.gens[0].running = false
    ∧ State.reset.zones[0].owner = none
    ∧ (let t := (s.modPage 7 fun g => { g with state := .live }).modZone 0 fun z => { z with owner := some 7 }
       t.zones[0].owner = some (pageClaimant 7) ∧ t.pages[7].state = .live)
    ∧ (let t := (s.modPage 0 fun g => { g with state := .chiming, chimeGen := some 3 }).modZone 0 fun z => { z with owner := some 0 }
       t.zones[0].owner = some (pageClaimant 0) ∧ t.pages[0].state = .chiming ∧ t.pages[0].chimeGen = some 3)
    ∧ (s.modZone 0 fun z => { z with owner := some 11 }).zones[0].owner = some (tgClaimant 3)
    ∧ (s.modZone 0 fun z => { z with owner := some 12 }).zones[0].owner = some egClaimant := by decide +kernel

theorem witness_PiecesReassemble :
    Port.reset.assembler.pieces = []
    ∧ (Port.reset.assemble cap0 true true (Vector.replicate 4 0)).1.assembler.pieces ≠ [] := by decide +kernel

/-- Two pages that contend for Z0 with claims of one priority and the stamps 0 and 1. -/
def contest : State :=
  ({ State.reset with elapsed := 1 }.setClaim 0 (some ⟨5, 1, 1, 0⟩)).setClaim 3 (some ⟨5, 1, 0, 0⟩)

theorem witness_OwnerRule :
    (∀ c, State.reset.contends 0 c = none) ∧ contest.contends 0 0 = some ⟨5, 1, 1, 0⟩
    ∧ contest.decideOwner 0 = some 3 ∧ contest.zones[0].owner = none
    ∧ (let s := contest.modZone 0 fun z => { z with owner := some 0 }
       let joins := s.modContest fun x => { x with now := { x.now with joined := x.now.joined.set 3 1 } }
       let later := joins.modContest fun x => { x with taken := 1 }
       let now := later.modContest fun x => { x with now := { x.now with taken := 1 } }
       let helped := now.modContest fun x => { x with gained := x.gained.set 0 1 }
       s.zones[0].owner = some 0 ∧ s.contends 0 0 = some ⟨5, 1, 1, 0⟩ ∧ s.contends 0 3 = some ⟨5, 1, 0, 0⟩
       ∧ ((∀ d : Fin 13, s.contest.now.joined[d].getLsbD 0 = false) ∧ s.decideOwner 0 = some 0)
       ∧ (joins.contest.now.taken.getLsbD 0 = false ∧ joins.contest.taken.getLsbD 0 = false ∧ joins.decideOwner 0 = some 0)
       ∧ (later.zones[0].owner = some 0 ∧ later.contends 0 0 = some ⟨5, 1, 1, 0⟩ ∧ later.decideOwner 0 = some 3)
       ∧ (now.contest.now.taken.getLsbD 0 = true ∧ now.contest.gained[(0 : Fin 13)].getLsbD 0 = false
         ∧ now.decideOwner 0 = some 0)
       ∧ (helped.zones[0].owner = some 0 ∧ helped.decideOwner 0 = some 3))
    ∧ State.reset.NoEvent
    ∧ ((0x8001 : ZoneSet).getLsbD 15 = true ∧ State.reset.floor 15 ≤ 1 ∧ State.reset.zones[15].owner = none
      ∧ (∀ e, State.reset.contends 15 e = none) ∧ State.reset.NoPending
      ∧ ((State.reset.elapsed - (0 : Word32)).toNat < (State.reset.elapsed - (0xFFFFFFFF : Word32)).toNat
        ∧ (State.reset.elapsed - (0 : Word32)).toNat = (State.reset.elapsed - 0).toNat ∧ (7 : Fin 13) < 12)) := by
  decide +kernel

theorem witness_ZoneSettingsWritten :
    let s := State.reset.modZone 15 fun z => { z with mode := .night, power := .standby }
    3 < (4 : Octet).toNat ∧ (1 : Octet).toNat = Mode.quiet.code ∧ s.Settled ∧ s.NoPending ∧ s.NoEvent
    ∧ (0x8000 : ZoneSet).getLsbD 15 = true ∧ s.zones[15].mode ≠ .quiet ∧ s.zones[15].power = .standby
    ∧ (0x8000 : ZoneSet).getLsbD 0 = false
    ∧ 7 < (8 : Octet).toNat ∧ ((some (7 : Fin 8)).map (·.val) = some (7 : Octet).toNat) := by decide +kernel

theorem witness_PageOpens :
    let s := State.reset.modPage 1 fun g => { g with state := .live }
    let t := (State.reset.setClaim 12 (some ⟨14, 1, 0, 0⟩)).modZone 0 fun z => { z with owner := some 12 }
    let rung := (ringing 14 12).modArb fun a => { a with queue := fullBells }
    7 < (8 : Octet).toNat ∧ 15 < (16 : Octet).toNat ∧ (7 : Octet).toNat = (7 : Fin 8).val ∧ s.pages[1].state ≠ .free
    ∧ s.Settled ∧ s.NoPending ∧ s.pages[7].state = .free
    ∧ ((1 : ZoneSet).getLsbD 0 = true ∧ s.zones[0].owner = none ∧ s.floor 0 ≤ 1
      ∧ ∀ d, d ≠ pageClaimant 7 → s.contends 0 d = none)
    ∧ (let u := playing 0 13 0 .continuous false
       u.Settled ∧ u.NoPending ∧ u.pages[7].state = .free ∧ u.arb.queue = [] ∧ (15 : Octet).toNat ≤ 15
       ∧ (u.arb.pattern (15 : Octet).toNat).isSome = true ∧ u.gens[tgGen 1].running = false
       ∧ ∀ h : Fin 4, h < 1 → u.gens[tgGen h].running = true)
    ∧ (rung.Settled ∧ rung.NoPending ∧ rung.pages[7].state = .free ∧ ∀ g : Fin 4, rung.gens[tgGen g].running = true)
    ∧ (s.arb.queue = [] ∧ s.arb.pattern (0 : Octet).toNat = none)
    ∧ (t.Settled ∧ t.NoPending ∧ t.pages[7].state = .free ∧ t.floor 0 ≤ 13 ∧ t.zones[0].owner = some 12
      ∧ t.claims[(12 : Fin 13)] = some ⟨14, 1, 0, 0⟩) := by decide +kernel

/-- Page 2 LIVE at priority 5 on Z4 to Z7, its claim standing. -/
def livePage : State :=
  (State.reset.modPage 2 fun g => { g with state := .live, priority := 5, wanted := 0x00F0, silenceClose := true, silenceStamp := some 0 }).setClaim 2
    (some ⟨5, 0x00F0, 0, 0⟩)

theorem witness_PageChanges :
    (∀ w : ZoneSet, (fun _ => (0x0080 : ZoneSet)) w = 0x0080) ∧ 7 < (8 : Octet).toNat ∧ (2 : Octet).toNat = (2 : Fin 8).val
    ∧ State.reset.pages[2].state = .free ∧ livePage.pages[2].state = .live ∧ livePage.Settled ∧ livePage.NoPending
    ∧ (livePage.wanted (pageClaimant 2)).getLsbD 4 = true ∧ (0x0080 : ZoneSet).getLsbD 4 = false :=
  ⟨fun _ => rfl, by decide +kernel⟩

theorem witness_PageEnds :
    let s := dueIn (.pageMaxTime 2) { livePage with elapsed := 600000 }
    let t := dueIn (.pageSilence 2) { livePage with elapsed := 8000 }
    let waitsFor (q : Fin 8) (stamp : Word32) (u : State) : State := u.modPage q fun g =>
      { g with state := .pending, priority := 5, wanted := 0x0010, allOrNone := true, openStamp := stamp }
    let v := waitsFor 7 0 (livePage.modZone 4 fun z => { z with owner := some 2 })
    let two := { waitsFor 6 1 v with elapsed := 2 }
    7 < (8 : Octet).toNat ∧ State.reset.pages[2].state = .free ∧ s.pages[2].state = .live ∧ s.NoPending
    ∧ (s.IsDue (.pageMaxTime 2) ∧ s.za.pageMax * 1000 ≤ (s.elapsed - s.pages[2].openStamp).toNat)
    ∧ (t.IsDue (.pageSilence 2) ∧ t.pages[2].silenceClose = true ∧ t.detectors[2].active = false
      ∧ t.pages[2].silenceStamp = some 0 ∧ t.za.pageSilence * 1000 ≤ (t.elapsed - 0).toNat)
    ∧ (livePage.Settled ∧ (2 : Octet).toNat = (2 : Fin 8).val ∧ (livePage.wanted (pageClaimant 2)).getLsbD 7 = true)
    ∧ ((∀ q : Fin 8, q ∈ [7, 6] ↔ two.pages[q].state = .pending)
      ∧ (two.elapsed - two.pages[6].openStamp).toNat < (two.elapsed - two.pages[7].openStamp).toNat)
    ∧ mayStart 7 v = false ∧ State.reset.pages[0].chime = none ∧ (∀ d : Fin 13, v.contest.excused[(7 : Fin 8)][d] = 0)
    ∧ (v.Settled ∧ v.pages[2].state = .live ∧ v.pages[7].state = .pending
      ∧ (∀ r : Fin 8, r ≠ 7 → v.pages[r].state ≠ .pending) ∧ v.pages[7].chime = none
      ∧ ∀ z : Fin 16, v.pages[7].wanted.getLsbD z.val = true → v.floor z ≤ v.pages[7].priority →
        (v.zones[z].owner = none ∨ v.zones[z].owner = some (pageClaimant 2))
        ∧ ∀ d, d ≠ pageClaimant 2 → v.contends z d = none)
    ∧ (let counts (z : Fin 16) : Prop := v.pages[7].wanted.getLsbD z.val = true ∧ v.floor z ≤ v.pages[7].priority
       v.NoEvent ∧ v.pages[7].allOrNone = true ∧ counts 4 ∧ v.zones[4].owner = some 2 ∧ v.claims[(2 : Fin 13)] = some ⟨5, 0x00F0, 0, 0⟩
       ∧ v.pages[7].priority ≤ 5 ∧ v.contest.excused[(7 : Fin 8)][(2 : Fin 13)].getLsbD 4 = false
       ∧ (∀ z o, counts z → v.zones[z].owner = some o → v.contends z o ≠ none)
       ∧ (∀ z e, counts z → e ≠ 2 → v.contends z e = none)
       ∧ v.claims[(12 : Fin 13)] = none ∧ v.pages[7].priority < 6) := by
  refine ⟨?_, ?_, ?_, ?_, ?_, ?_, ?_, ?_, ?_, ?_, ?_, ?_, ?_⟩ <;> decide +kernel

theorem witness_AmplifierPower :
    let s := dueIn .ampRest ({ crowded 12 (linked State.reset) with elapsed := 60000 }.modZone 15 fun z => { z with mode := .closed })
    let w := { State.reset with elapsed := 1500 }.modZone 7 fun z => { z with power := .waking, wakeStamp := some 0 }
    (s.IsDue .ampRest ∧ (∀ l : Fin 4, s.ports[legPort l].queue.length ≤ 12) ∧ s.zones[15].power = .on
      ∧ s.zones[15].mode = .closed ∧ s.zones[15].owner = none ∧ s.zones[15].test = .none
      ∧ s.za.ampIdle * 1000 ≤ (s.elapsed - s.zones[15].idleStamp).toNat
      ∧ s.ports[legPort (legOfZone 15)].up = true)
    ∧ ((dueIn .ampWakeLimit w).IsDue .ampWakeLimit ∧ w.zones[7].power = .waking ∧ w.zones[7].wakeStamp = some 0
      ∧ w.za.ampWake ≤ (w.elapsed - 0).toNat ∧ w.zones[0].power ≠ .waking)
    ∧ (w.Settled ∧ (3 : Octet).toNat = (3 : Fin 4).val ∧ w.zones[zoneOf 1 3].power = .waking
      ∧ 3 < (4 : Octet).toNat ∧ w.zones[zoneOf 1 2].power ≠ .waking) := by decide +kernel

theorem witness_LineTestsStart :
    let s := dueIn (.lineTestStart 1) ((crowded 15 (linked State.reset)).modZone 7 fun z => { z with test := .pending })
    let t := dueIn (.lineTestStart 1) ((crowded 16 (linked State.reset)).modZone 7 fun z => { z with test := .pending })
    let ready (u : State) (j : Fin 4) : Prop := u.zones[zoneOf 1 j].test = .pending ∧ u.zones[zoneOf 1 j].power = .on
      ∧ u.zones[zoneOf 1 j].owner = none
    (s.IsDue (.lineTestStart 1) ∧ s.meas[1].zone = none ∧ s.ports[legPort 1].up = true ∧ s.meas[1].retry = none
      ∧ ready s 3 ∧ (∀ j : Fin 4, j < 3 → ¬ready s j) ∧ s.NoPending ∧ s.decideOwner (zoneOf 1 3) = none
      ∧ s.ports[legPort 1].queue.length < 16)
    ∧ (t.IsDue (.lineTestStart 1) ∧ t.meas[1].zone = none ∧ t.ports[legPort 1].up = true ∧ ready t 3
      ∧ (∀ j : Fin 4, j < 3 → ¬ready t j) ∧ 16 ≤ t.ports[legPort 1].queue.length)
    ∧ (let u := (crowded 12 (linked State.reset)).modZone 7 fun z => { z with power := .standby }
       u.Settled ∧ u.NoPending ∧ (∀ l : Fin 4, u.ports[legPort l].queue.length ≤ 12)
       ∧ (0x00F0 : ZoneSet).getLsbD 7 = true ∧ u.zones[7].test = .none ∧ u.zones[7].power = .standby) := by decide +kernel

/-- A test of Z6 in progress, number 19, departed at 0. -/
def testing : State :=
  (State.reset.modMeas 1 fun m => { m with zone := some 2, number := 19, departure := some 0 }).modZone 6
    fun z => { z with test := .testing }

theorem witness_LineTestsEnd :
    let t := dueIn (.testTimeout 1) { testing with elapsed := 500 }
    let m (s : State) : Prop := s.NoPending ∧ s.meas[1].zone = some 2 ∧ s.meas[1].departure = some 0
      ∧ s.zones[zoneOf 1 2].test = .testing ∧ s.zones[zoneOf 1 2].owner = none ∧ s.decideOwner (zoneOf 1 2) = none
    (m testing ∧ testing.Settled ∧ (2 : Octet).toNat = (2 : Fin 4).val ∧ testing.meas[1].number = 19
      ∧ [Health.short, .low, .normal, .high, .openLine, .fault][(5 : Octet).toNat]? = some .fault)
    ∧ (m t ∧ t.IsDue (.testTimeout 1) ∧ t.testTimeout ≤ (t.elapsed - 0).toNat)
    ∧ State.reset.meas[1].zone = none ∧ 5 < (6 : Octet).toNat ∧ (3 : Octet).toNat ≠ (2 : Fin 4).val := by decide +kernel

theorem witness_RecordsStayConsistent :
    let s := (((evacuation 1 2147483647 [⟨0, some 5⟩, ⟨127, none⟩]).modMeas 1 fun m => { m with zone := some 2 }).modZone 6
      fun z => { z with test := .testing }).enqueueFront (.roomClear 3 31)
    (s.drill.record.map (·.clearedCount)) = some 1 ∧ (match step s with | .next _ => true | _ => false) = true
    ∧ RecordsOk { s with drill := { s.drill with record := s.drill.record.map fun r => { r with musterCount := 2 } } } := by
  refine ⟨by decide +kernel, by decide +kernel, by decide +kernel, by decide +kernel, by decide +kernel, by decide +kernel,
    by decide +kernel, ?_, by decide +kernel, ?_, by decide +kernel, by decide +kernel, by decide +kernel⟩
  · rintro r ⟨⟩
    decide +kernel
  · rintro n ⟨⟩
    decide

theorem witness_ClaimsMatchHolders :
    let s := (((livePage.modGen (tgGen 3) fun g => { g with running := true, use := .chime, page := some 7 }).modPage 7
      fun g => { g with state := .chiming, chimeGen := some 3 }).setClaim 7 (some ⟨1, 1, 0, 0⟩)).enqueueFront (.pageClose 1 7)
    ClaimsOk s ∧ (match step s with | .next _ => true | _ => false) = true := by
  refine ⟨⟨by decide +kernel, by decide +kernel, ?_, by decide +kernel⟩, by decide +kernel⟩
  decide +kernel

/-- The poll point of L3 with room 31 last polled and alone expected, after a whole round. -/
def pollAt (n : Nat) : State :=
  dueIn (.pollPoint 3) { ((crowded n (linked (lockedAt 0))).modPoll 3 fun l => { l with lastPolled := some 31 }) with
    elapsed := 500, rooms := (Vector.replicate 128 Room.absent).set 127 { Room.absent with state := .stale } }

theorem witness_PollPointPolls :
    let s := pollAt 15
    let expects (j : Nat) : Prop := s.rooms[roomIndex 3 (Fin.ofNat 32 (32 + j))].state ≠ .absent
    (s.IsDue (.pollPoint 3) ∧ s.roster.pollInterval ≤ (s.elapsed - s.polls[3].stamp).toNat ∧ s.polls[3].owed = false
      ∧ s.polls[3].lastPolled = some 31 ∧ s.ports[legPort 3].up = true ∧ s.polls[3].poll = none ∧ s.clock.state ≠ .unset
      ∧ ¬(s.drill.state = .prealert ∨ s.drill.state = .evacuate ∨ s.drill.state = .alarm)
      ∧ s.ports[legPort 3].queue.length < 16 ∧ expects 31 ∧ ∀ i < 31, ¬expects i)
    ∧ (let t := dueIn (.pollPoint 0) { State.reset with elapsed := 500 }
       t.IsDue (.pollPoint 0) ∧ t.roster.pollInterval ≤ (t.elapsed - t.polls[0].stamp).toNat ∧ t.polls[0].owed = false
       ∧ t.ports[legPort 0].up = false) := by decide +kernel

theorem witness_ClockReplyTaken :
    let s := polled 31 0 86399999 3
    let e (troom : Word32) : Int :=
      let r : Int := ((troom.toNat : Int) - (86399999 + 1)) % 86400000
      if 43200000 ≤ r then r - 86400000 else r
    s.Settled ∧ s.polls[2].poll = some ⟨31, some ⟨0, 86399999⟩, false⟩ ∧ (86399999 : Word32).toNat < 86400000
    ∧ (e 250).natAbs ≤ s.roster.tolerance
    ∧ (s.roster.tolerance < (e 251).natAbs ∧ s.ports[legPort 2].up = true ∧ s.ports[legPort 2].queue.length < 16)
    ∧ 86400000 ≤ (86400000 : Word32).toNat
    ∧ (s.modPoll 2 fun l => { l with poll := l.poll.map fun q => { q with voided := true } }).polls[2].poll
        = some ⟨31, some ⟨0, 86399999⟩, true⟩
    ∧ State.reset.polls[2].poll = none := by decide +kernel

theorem witness_RosterTicksAct :
    let s := dueIn .replyTimeout (polled 31 0 0 200)
    let t := dueIn .replyTimeout (polled 31 0 0 199)
    let u := dueIn .clockStateBroadcast (crowded 15 (linked (lockedAt 0)))
    let v := dueIn .clockStateBroadcast State.reset
    s.IsDue .replyTimeout ∧ s.polls[2].poll = some ⟨31, some ⟨0, 0⟩, false⟩ ∧ s.roster.replyTimeout ≤ (s.elapsed - 0).toNat
    ∧ (t.IsDue .replyTimeout ∧ t.polls[2].poll = some ⟨31, some ⟨0, 0⟩, false⟩ ∧ (t.elapsed - 0).toNat < t.roster.replyTimeout)
    ∧ (s.modPoll 2 fun l => { l with poll := some ⟨31, some ⟨0, 0⟩, true⟩ }).polls[2].poll = some ⟨31, some ⟨0, 0⟩, true⟩
    ∧ (v.IsDue .clockStateBroadcast ∧ v.clock.state = v.roster.noted ∧ v.ports[legPort 3].up = false)
    ∧ (u.IsDue .clockStateBroadcast ∧ u.clock.state ≠ u.roster.noted ∧ u.clock.state ≠ .unset
      ∧ (∀ l : Fin 4, u.ports[legPort l].queue.length < 16) ∧ u.ports[legPort 3].up = true) := by
  decide +kernel

theorem witness_RosterWritten :
    (∀ o n : Bool, (fun _ b => b) o n = n) ∧ (∀ o n : Bool, (fun a b => a || b) o n = (o || n))
    ∧ (∀ o n : Bool, (fun a b => a && !b) o n = (o && !n)) ∧ 3 < (4 : Octet).toNat ∧ (3 : Octet).toNat = (3 : Fin 4).val
    ∧ (polled 31 0 0 0).polls[2].poll = some ⟨31, some ⟨0, 0⟩, false⟩ ∧ State.reset.polls[2].poll = none
    ∧ (pollAt 0).rooms[roomIndex 3 31].state ≠ .absent ∧ (pollAt 0).rooms[roomIndex 3 0].state = .absent := by
  decide +kernel

/-- An edge of a contact, the debounce time passed, in a drill state. -/
def edge (i : Fin 4) (raw : Bool) (st : DrillState) : State :=
  dueIn (.inputEdge i) { (State.reset.modInput i fun x => { x with raw, level := !raw }).modDrill fun d => { d with state := st } with
    elapsed := 20 }

theorem witness_InputEdgeActs :
    let meets (i : Fin 4) (s : State) := s.IsDue (.inputEdge i) ∧ s.inputs[i].level ≠ s.inputs[i].raw
      ∧ s.drill.debounce ≤ (s.elapsed - s.inputs[i].changeStamp).toNat
    meets 0 (edge 0 true .hold) ∧ meets 0 (edge 0 false .alarmSilenced) ∧ meets 1 (edge 1 true .evacuate)
    ∧ meets 2 (edge 2 true .alarm) ∧ meets 3 (edge 3 true .idle) := by decide +kernel

/-- The record of a drill with a pre-alert of 30 s. -/
def record30 : DrillRecord :=
  { byKey := false, tag := some 1, startTime := none, prealert := 30, target := 240, staff := 0x11, autoHold := true
    evacStart := none, holdReached := none, holdCause := none, endReason := none, musterCount := 0, clearedCount := 0
    lastClear := none, allCleared := none, bellsWithheld := 0, faulted := none }

theorem witness_DrillTimersAct :
    let s := dueIn .prealertExpiry { State.reset.modDrill fun d => { d with state := .prealert, record := some record30 } with
      elapsed := 30000 }
    let t := dueIn .evacuationToneLimit (State.reset.modDrill fun d =>
      { d with state := .evacuate, record := some record30, elapsed := some 600000 })
    let u := dueIn (.drillStateOwedOffer 3) ((crowded 15 (linked State.reset)).modDrill fun d => { d with owed := 0xF })
    let v := dueIn (.drillStateOwedOffer 3) State.reset
    (s.IsDue .prealertExpiry ∧ s.drill.state = .prealert ∧ s.drill.record = some record30
      ∧ record30.prealert * 1000 ≤ (s.elapsed - s.drill.entryStamp).toNat)
    ∧ (t.IsDue .evacuationToneLimit ∧ t.drill.state = .evacuate ∧ t.drill.record = some record30
      ∧ t.drill.elapsed = some 600000 ∧ t.drill.toneLimit * 1000 ≤ 600000)
    ∧ (u.IsDue (.drillStateOwedOffer 3) ∧ u.ports[legPort 3].up = true ∧ u.drill.owed.getLsbD 3 = true
      ∧ u.ports[legPort 3].queue.length < 16)
    ∧ (v.IsDue (.drillStateOwedOffer 3) ∧ v.ports[legPort 3].up = false ∧ v.drill.owed.getLsbD 3 = false) := by
  decide +kernel

/-- The machine in a drill state. -/
def inDrill (st : DrillState) : State := State.reset.modDrill fun d => { d with state := st, record := some record30 }

theorem witness_DrillCommandsAct :
    (inDrill .alarm).drill.state = .alarm ∧ (inDrill .alarmSilenced).drill.state = .alarmSilenced
    ∧ (inDrill .prealert).drill.state = .prealert ∧ (inDrill .evacuate).drill.state = .evacuate
    ∧ (inDrill .hold).drill.state = .hold ∧ (inDrill .allclear).drill.state = .allclear
    ∧ State.reset.drill.state = .idle ∧ 0 < min 120 (1 : Octet).toNat := by decide +kernel

theorem witness_RoomClears :
    let l : List MusterEntry := [⟨0, none⟩, ⟨126, some 1⟩]
    let s := (evacuation 3 65000 (l ++ ⟨127, none⟩ :: [])).setDue []
    let t := evacuation 3 65000 (l ++ ⟨127, some 5⟩ :: [])
    (State.reset.Settled ∧ ¬(State.reset.drill.state = .evacuate ∨ State.reset.drill.state = .hold))
    ∧ (s.Settled ∧ s.drill.state = .evacuate ∧ s.drill.muster = l ++ ⟨127, none⟩ :: []
      ∧ (∀ x ∈ l, x.room ≠ 32 * (3 : Fin 4).val + (31 : Fin 32).val) ∧ (127 : Nat) = 32 * (3 : Fin 4).val + (31 : Fin 32).val
      ∧ s.drill.elapsed = some 65000 ∧ s.drill.record.isSome = true)
    ∧ (t.drill.muster = l ++ ⟨127, some 5⟩ :: [] ∧ (⟨127, some 5⟩ : MusterEntry).cleared.isSome = true) := by decide +kernel

theorem witness_TrunkCellDispatched :
    let s := linked (crowded 15 dispatching)
    (0x00 : Octet) ≠ 0x01 ∧ validAddr 0x02 = false
    ∧ (¬(0x40 ≤ (0x3F : Octet).toNat) ∧ decodeCommand (cell 0x3F 0x00 0x01 0 []) cap0 = none)
    ∧ decodeCommand (cell 0x1E 0x00 0x01 0 []) cap0 = some (.dispatchWrite 0 0 0 false false false false)
    ∧ (legOfAddr 0xFF = some 3 ∧ 0x40 ≤ (0xFF : Octet).toNat ∧ s.table[tableIndex 0xFF].down = true
      ∧ s.table[tableIndex 0xFF].withhold = true ∧ s.drill.state = .evacuate)
    ∧ s.table[tableIndex 0x72].down = false
    ∧ (s.table[tableIndex 0x70].down = true ∧ s.table[tableIndex 0x70].withhold = false ∧ s.ports[legPort 3].up = true
      ∧ s.ports[legPort 3].queue.length < 16) := by decide +kernel

theorem witness_LegCellDispatched :
    let s := linked (crowded 15 dispatching)
    let off := s.modTable fun t => t.set 0 { down := true, up := false, urgent := false, withhold := true }
    (¬((0xA5 : Octet) = ampAddr 0 ∨ ∃ r : Fin 32, (0xA5 : Octet) = roomAddr 0 r)) ∧ validAddr 0x02 = false
    ∧ (∃ r : Fin 32, (0x9F : Octet) = roomAddr 0 r) ∧ validAddr 0xFF = true
    ∧ (0x01 ≤ (0x1E : Octet).toNat ∧ (0x1E : Octet).toNat ≤ 0x1E) ∧ (0x1F ≤ (0x1F : Octet).toNat ∧ (0x1F : Octet).toNat < 0x40)
    ∧ ((0x2A : Octet).toNat ∈ [0x2A, 0x2B, 0x32, 0x34] ∧ (0x05 : Octet) ≠ 0x00 ∧ (0x10 : Octet) = ampAddr 0
      ∧ (0x34 : Octet).toNat ∈ [0x32, 0x34] ∧ (0x9F : Octet) = roomAddr 0 31)
    ∧ (∀ k ∈ [0x2A, 0x2B, 0x32, 0x34], (0x3F : Octet).toNat ≠ k)
    ∧ (0x40 ≤ (0x40 : Octet).toNat ∧ off.table[tableIndex 0x40].up = false)
    ∧ (s.table[tableIndex 0x71].up = true ∧ s.table[tableIndex 0x71].withhold = true ∧ s.drill.state = .evacuate)
    ∧ (s.table[tableIndex 0x70].withhold = false ∧ s.ports[trunkPort].queue.length < 32)
    ∧ ((0x13 : Octet) ≠ 0x01 ∧ roomsLegOf 0x13 = none) ∧ roomsLegOf 0x88 = some 0 ∧ roomsLegOf 0x23 = some 3
    ∧ s.table[tableIndex 0x72].down = false ∧ s.ports[legPort 3].up = true ∧ s.ports[legPort 3].queue.length < 16 := by
  decide +kernel

theorem witness_DispatchTableWritten :
    (0x3F : Octet).toNat < 0x40 ∧ (0x40 : Octet).toNat < (0x41 : Octet).toNat
    ∧ (0x40 ≤ (0x40 : Octet).toNat ∧ (0x40 : Octet).toNat ≤ (0xFF : Octet).toNat)
    ∧ State.reset.ports[trunkPort].queue.length < 32 := by decide +kernel

theorem witness_QuantitiesConfigured :
    State.reset.Settled ∧ ((3 : Word16).toNat, (10 : Int), (3600 : Int)) ∈ [((3 : Nat), (10 : Int), (3600 : Int))]
    ∧ ((28 : Word16).toNat, (1 : Int), (100 : Int)) ∈ [((28 : Nat), (1 : Int), (100 : Int))] := by decide +kernel

theorem witness_IndicesAndSetsConfigured :
    (0 : Word16).toNat = 0 ∧ 31 < (32 : Word16).toNat
    ∧ ((20 : Word16).toNat ∈ [20, 21, 22, 23, 27] ∧ 15 < (16 : Word32).toNat)
    ∧ ((27 : Word16).toNat ∈ [20, 21, 22, 23, 27] ∧ 1 < (2 : Word32).toNat)
    ∧ ((26 : Word16).toNat ∈ [26, 31] ∧ 2 < (3 : Octet).toNat)
    ∧ ((23 : Word16).toNat = 23 ∧ (15 : Word32).toNat ≤ 15) ∧ ((27 : Word16).toNat = 27 ∧ (1 : Word32).toNat ≤ 1)
    ∧ ((31 : Word16).toNat = 31 ∧ (2 : Octet).toNat = 2) := by decide

theorem witness_SpecialParametersConfigured :
    let s := State.reset.modDrill fun d => { d with state := .hold }
    State.reset.Settled ∧ (0 : Int) ≤ min (max 256 (min 32767 (0 : Word32).toInt)) ((State.reset.za.detHigh : Int) - 1)
    ∧ 2 < (3 : Octet).toNat ∧ (2 : Octet).toNat ≤ 2 ∧ State.reset.drill.state = .idle
    ∧ s.Settled ∧ s.drill.state ≠ .idle ∧ s.NoPending ∧ s.NoEvent := by decide +kernel

theorem witness_ReadsObserve :
    ((255 : Word16).toNat ≤ 255 ∧ ¬(256 : Word16).toNat ≤ 255) ∧ ((0 : Word16).toNat = 0 ∧ ¬(1 : Word16).toNat = 0)
    ∧ ((7 : Word16).toNat ≤ 7 ∧ ¬(8 : Word16).toNat ≤ 7) ∧ ((47 : Word16).toNat ≤ 47 ∧ ¬(48 : Word16).toNat ≤ 47)
    ∧ ((4 : Word16).toNat ≤ 4 ∧ ¬(5 : Word16).toNat ≤ 4) ∧ ((31 : Word16).toNat ≤ 31 ∧ ¬(32 : Word16).toNat ≤ 31)
    ∧ ¬(4 ≤ 3 ∨ (0x40 ≤ (4 : Word16).toNat ∧ (4 : Word16).toNat ≤ 0xFF))
    ∧ ¬((0x100 : Word16).toNat ≤ 3 ∨ (0x40 ≤ (0x100 : Word16).toNat ∧ (0x100 : Word16).toNat ≤ 0xFF)) := by decide

theorem witness_ReadsClear :
    State.reset.clipDue.getLsbD 15 = false ∧ { State.reset with clipDue := 0x8000 }.clipDue.getLsbD 15 = true
    ∧ (legPort 3 = legPort 3 ∧ Instr.readLeg 1 (BitVec.ofNat 16 (12 + (3 : Fin 4).val)) true = .readLeg 1 15 true)
    ∧ (Instr.readTrunk 1 (BitVec.ofNat 16 0xFF) false = .readTrunk 1 0xFF false ∧ 0x40 ≤ 0xFF ∧ 0xFF ≤ 0xFF)
    ∧ (Instr.readRoom 1 (BitVec.ofNat 16 131) true = .readRoom 1 131 true ∧ 131 ≤ 131) := by decide +kernel

theorem witness_CommandResetResult :
    let s := polled 31 0 0 7
    s.Settled ∧ State.reset.polls[2].poll = none ∧ s.polls[2].poll = some ⟨31, some ⟨0, 0⟩, false⟩ := by decide +kernel

theorem witness_ScheduleWritten :
    (State.reset.modSched fun x => { x with commitPending := true }).sched.commitPending = true
    ∧ State.reset.sched.commitPending = false ∧ 127 < (128 : Octet).toNat ∧ (127 : Octet).toNat ≤ 127
    ∧ 86399 < (86400 : Word32).toNat ∧ (86399 : Word32).toNat ≤ 86399 ∧ (1 : DaySet) ≠ 0 ∧ (1 : ZoneSet) ≠ 0
    ∧ 15 < (16 : Octet).toNat ∧ (15 : Octet).toNat ≤ 15 := by decide +kernel

/-- The machine with two entries in the last two slots of the STAGED bank, of pattern 12 or 3. -/
def staged (second pattern : Nat) : State := (lockedAt 0).modSched fun x => { x with
  bankB := (x.bankB.set 126 (some { entryAt 100 1 none with pattern := 12 })).set 127
    (some { entryAt second 1 none with pattern }) }

/-- Only the last two slots of the STAGED bank of `staged` hold an entry. -/
theorem staged_none (second pattern : Nat) (i : Fin 128) (a : Entry)
    (h : (staged second pattern).sched.stagedBank[i] = some a) : 126 ≤ i.val := by
  rcases Nat.lt_or_ge i.val 126 with hi | hi
  · have h' : ((((Vector.replicate 128 none).set 126 (some { entryAt 100 1 none with pattern := 12 })).set 127
      (some { entryAt second 1 none with pattern }) : Bank))[i.val]'i.isLt = some a := h
    rw [Vector.getElem_set_ne _ _ (by omega), Vector.getElem_set_ne _ _ (by omega), Vector.getElem_replicate] at h'
    cases h'
  · exact hi

/-- Its entries, in order of slot. -/
theorem staged_126 (second pattern : Nat) :
    (staged second pattern).sched.stagedBank[(126 : Fin 128)] = some { entryAt 100 1 none with pattern := 12 } := by
  change ((((Vector.replicate 128 none).set 126 (some { entryAt 100 1 none with pattern := 12 })).set 127
      (some { entryAt second 1 none with pattern }) : Bank))[126] = _
  rw [Vector.getElem_set_ne _ _ (by omega), Vector.getElem_set_self]

theorem staged_127 (second pattern : Nat) :
    (staged second pattern).sched.stagedBank[(127 : Fin 128)] = some { entryAt second 1 none with pattern } := by
  change ((((Vector.replicate 128 none).set 126 (some { entryAt 100 1 none with pattern := 12 })).set 127
      (some { entryAt second 1 none with pattern }) : Bank))[127] = _
  rw [Vector.getElem_set_self]

/-- Two of its entries, one above the other, are those of the last two slots. -/
theorem staged_pair (second pattern : Nat) (i j : Fin 128) (a b : Entry) (h : i < j)
    (hi : (staged second pattern).sched.stagedBank[i] = some a) (hj : (staged second pattern).sched.stagedBank[j] = some b) :
    i = 126 ∧ j = 127 ∧ a = { entryAt 100 1 none with pattern := 12 } ∧ b = { entryAt second 1 none with pattern } := by
  have h1 := staged_none second pattern i a hi
  have h2 := staged_none second pattern j b hj
  obtain rfl : i = 126 := by omega
  obtain rfl : j = 127 := by omega
  rw [staged_126] at hi
  rw [staged_127] at hj
  cases hi
  cases hj
  exact ⟨rfl, rfl, rfl, rfl⟩

theorem witness_ScheduleCommitted :
    let below (s : State) (i j : Fin 128) : Prop := i < j ∧ ∃ a b, s.sched.stagedBank[i] = some a
      ∧ s.sched.stagedBank[j] = some b ∧ b.second < a.second
    let empty (s : State) (i : Fin 128) : Prop := ∃ a, s.sched.stagedBank[i] = some a ∧ s.arb.pattern a.pattern = none
    let collide (s : State) (i j : Fin 128) : Prop := i < j ∧ ∃ a b, s.sched.stagedBank[i] = some a
      ∧ s.sched.stagedBank[j] = some b ∧ a.second = b.second ∧ a.days &&& b.days ≠ 0 ∧ a.zones &&& b.zones ≠ 0
    (below (staged 99 12) 126 127 ∧ ∀ k l, l < 127 → ¬below (staged 99 12) k l)
    ∧ ((∀ i j, ¬below (staged 100 3) i j) ∧ empty (staged 100 3) 127 ∧ ∀ k < 127, ¬empty (staged 100 3) k)
    ∧ ((∀ i j, ¬below (staged 100 12) i j) ∧ (∀ i, ¬empty (staged 100 12) i) ∧ collide (staged 100 12) 126 127
        ∧ (∀ k l, l < 127 → ¬collide (staged 100 12) k l) ∧ ∀ k < 126, ¬collide (staged 100 12) k 127)
    ∧ ((∀ i j, ¬below (staged 101 12) i j) ∧ (∀ i, ¬empty (staged 101 12) i) ∧ (∀ i j, ¬collide (staged 101 12) i j)
        ∧ (staged 101 12).clock.state ≠ .unset) := by
  have order (second pattern : Nat) (h : 100 ≤ second) (i j : Fin 128) :
      ¬(i < j ∧ ∃ a b, (staged second pattern).sched.stagedBank[i] = some a
        ∧ (staged second pattern).sched.stagedBank[j] = some b ∧ b.second < a.second) := by
    rintro ⟨hij, a, b, ha, hb, hlt⟩
    obtain ⟨-, -, rfl, rfl⟩ := staged_pair second pattern i j a b hij ha hb
    change second < 100 at hlt
    omega
  have rings (second : Nat) (i : Fin 128) : ¬∃ a, (staged second 12).sched.stagedBank[i] = some a
      ∧ (staged second 12).arb.pattern a.pattern = none := by
    rintro ⟨a, ha, hn⟩
    have hi := staged_none second 12 i a ha
    obtain rfl | rfl : i = 126 ∨ i = 127 := by omega
    · rw [staged_126] at ha; cases ha; cases hn
    · rw [staged_127] at ha; cases ha; cases hn
  refine ⟨⟨⟨by decide, _, _, staged_126 _ _, staged_127 _ _, by decide⟩, ?_⟩,
    ⟨order 100 3 (by omega), ⟨_, staged_127 _ _, rfl⟩, ?_⟩,
    ⟨order 100 12 (by omega), rings 100, ⟨by decide, _, _, staged_126 _ _, staged_127 _ _, by decide, by decide, by decide⟩, ?_, ?_⟩,
    ⟨order 101 12 (by omega), rings 101, ?_, by decide⟩⟩
  · rintro k l hl ⟨hkl, a, b, ha, hb, -⟩
    have := (staged_pair _ _ k l a b hkl ha hb).2.1
    omega
  · rintro k hk ⟨a, ha, hn⟩
    have hi := staged_none _ _ k a ha
    obtain rfl : k = 126 := by omega
    rw [staged_126] at ha; cases ha; cases hn
  · rintro k l hl ⟨hkl, a, b, ha, hb, -⟩
    have := (staged_pair _ _ k l a b hkl ha hb).2.1
    omega
  · rintro k hk ⟨hkl, a, b, ha, hb, -⟩
    have := (staged_pair _ _ k 127 a b hkl ha hb).1
    omega
  · rintro k l ⟨hkl, a, b, ha, hb, hs, -⟩
    obtain ⟨-, -, rfl, rfl⟩ := staged_pair _ _ k l a b hkl ha hb
    change 100 = 101 at hs
    omega

theorem witness_HolidaysWritten :
    let l : List Day := [411, 412]
    let full := (List.range 32).map fun n => BitVec.ofNat 16 n
    (412 ∈ l) ∧ ((415 : Day) ∉ full ∧ 32 ≤ full.length)
    ∧ ((415 : Day) ∉ l ++ [500] ∧ (l ++ [500]).length < 32 ∧ (∀ d ∈ l, d.toNat < (415 : Day).toNat)
      ∧ ∀ d ∈ [(500 : Day)], (415 : Day).toNat < d.toNat) := by
  refine ⟨by decide, ⟨by decide +kernel, by decide +kernel⟩, by decide, by decide, ?_, ?_⟩ <;> simp

/-- The machine, the clock at a Tuesday's midnight, with one entry in the last slot of the ACTIVE bank, at second 5, the
cursor there. -/
def lastSlot (pattern : Nat) : State := (lockedAt 0).modSched fun x => { x with
  bankA := x.bankA.set 127 (some { entryAt 5 1 none with pattern }), cursor := 127 }

theorem lastSlot_127 (pattern : Nat) :
    (lastSlot pattern).sched.activeBank[(127 : Fin 128)] = some { entryAt 5 1 none with pattern } := by
  change (((Vector.replicate 128 none).set 127 (some { entryAt 5 1 none with pattern }) : Bank))[127] = _
  rw [Vector.getElem_set_self]

theorem witness_ScheduleRings :
    let s (st : DrillState) (pattern : Nat) := (lastSlot pattern).modDrill fun d => { d with state := st, record := some record30 }
    let w := (lastSlot 3).modSched fun x => { x with commitPending := true }
    ((s .hold 3).sched.activeBank[(127 : Fin 128)] = some (entryAt 5 1 none) ∧ (s .hold 3).drill.state ≠ .idle
      ∧ (s .hold 3).drill.record = some record30)
    ∧ ((s .idle 3).sched.activeBank[(127 : Fin 128)] = some (entryAt 5 1 none) ∧ (s .idle 3).drill.state = .idle
      ∧ (s .idle 3).inputs[(3 : Fin 4)].level = false ∧ (s .idle 3).arb.pattern 3 = none)
    ∧ ((s .idle 15).arb.pattern 15).isSome = true ∧ State.reset.clock.state = .unset
    ∧ ((lastSlot 3).clock.state ≠ .unset ∧ (lastSlot 3).sched.commitPending = false ∧ (lastSlot 3).sched.cursor ≤ 127
      ∧ ((127 : Fin 128).val = 127 ∧ (lastSlot 3).sched.activeBank[(127 : Fin 128)] = some (entryAt 5 1 none)
        ∧ 4 < (entryAt 5 1 none).second))
    ∧ ((lastSlot 3).sched.cursor ≤ 128
      ∧ ∀ (i : Fin 128) (e : Entry), (lastSlot 3).sched.cursor ≤ i.val → i.val < 128 →
        (lastSlot 3).sched.activeBank[i] = some e → e.second ≤ 5)
    ∧ (w.sched.commitPending = true ∧ (w.modMgmt fun m => { m with deferred := some 1 }).mgmt.deferred = some 1) := by
  refine ⟨⟨lastSlot_127 3, by decide, rfl⟩, ⟨lastSlot_127 3, rfl, by decide +kernel, by decide +kernel⟩, by decide +kernel, rfl,
    ⟨by decide, rfl, by decide, rfl, lastSlot_127 3, by decide⟩, ⟨by decide, ?_⟩, rfl, rfl⟩
  intro i e hi _ he
  change 127 ≤ i.val at hi
  obtain rfl : i = 127 := by omega
  rw [lastSlot_127] at he
  cases he
  decide

theorem witness_ScheduleFollowsClock :
    let s := lastSlot 3
    let entry : Entry := entryAt 5 1 none
    let reaches (u : State) (sn so weekday : Nat) (i : Fin 128) : Bool := (u.sched.activeBank[i]).any fun e =>
      (decide (e.second < sn ∧ so < e.second) && !(!e.days.getLsbD weekday || (e.holidaySkip && u.sched.holidays.contains 412)
        || decide (e.fired = some 412))) && (e.catchUp && decide (sn ≤ e.second + u.sched.catchUpWindow))
    ((412 : Day) - 412).toInt = 0 ∧ 0 / 1000 = 999 / 1000 ∧ ((411 : Day) - 412).toInt < 0 ∧ 4999 / 1000 < 5000 / 1000
    ∧ 0 < ((0 : Day) - 65535).toInt
    ∧ (0 / 1000 < 65999 / 1000 ∧ s.sched.activeBank[(127 : Fin 128)] = some entry ∧ reaches s 65 0 1 127 = true
      ∧ ∀ j : Fin 128, 127 < j → reaches s 65 0 1 j = false)
    ∧ ∀ i : Fin 128, reaches (lockedAt 0) 65 0 1 i = false := by
  refine ⟨by decide, by decide, by decide, by decide, by decide, ⟨by decide, lastSlot_127 3, ?_, fun j h => by omega⟩, ?_⟩
  · simp only [lastSlot_127]
    decide +kernel
  · decide +kernel

end Sys2Proof.Tests
end

section
/-!
PROOFS. What the steps of the switch do to the clock: which operations leave it as it is, and a principle by which every step
keeps a property of the clock that its own moves keep.
-/
namespace Sys2Proof.Machine

variable (s : State)

/-! ## Taking commands, events and cells -/

@[simp] theorem settle_clock : s.settle.clock = s.clock := by rw [settle_frame]

@[simp] theorem take_clock (c : Instr) : (s.take c).clock = s.clock := rfl

@[simp] theorem begun_clock (c : Instr) : (s.begun c).clock = s.clock := by simp [State.begun]

@[simp] theorem asEvent_clock (act : State → State) : (asEvent act s).clock = (act s).clock := rfl

@[simp] theorem respond_clock (t k : Octet) (r : Result) (d : List Octet) : (respond t k r d s).clock = s.clock :=
  still_clock (respond_still s t k r d)

/-! ## The two clock parameters that touch the correction and the slew -/

/-- A quantity written within its range: the clock goes to what the owner makes of the clamped value. -/
theorem writeRanged_clock {n : Nat} {lo hi : Int} (h : quantityRange n = some (lo, hi)) (tag : Octet) (value : Word32) :
    (writeRanged tag n value s).clock = (s.setQuantity n (clampInt lo hi value.toInt)).clock := by
  simp [writeRanged, h, writeQuantity, answerConfigure]

theorem configureSlewRate_clock {s t : State} {tag : Octet} {value : Word32}
    (h : exec (.configureSlewRate tag value) s = .next t) :
    t.clock = s.clock.setSlewRate (clampInt 1 60 value.toInt).toNat := by
  cases h
  rw [onCommand_eq, writeRanged_clock _ (n := 2) rfl]
  simp [State.setQuantity]

/-! ## Ticks between two slew ticks -/

/-- A clock tick that is no slew tick raises the slew counter, and leaves the interval. -/
theorem Clock.tick_of_not_slews {c : Clock} (h : c.slewsNext = false) :
    c.tick.slewCounter = c.slewCounter + 1 ∧ c.tick.slewInterval = c.slewInterval := by
  unfold Clock.tick
  simp only [h]
  split <;> exact ⟨rfl, rfl⟩

/-- From a slew counter of 0, the first K − 1 clock ticks count it up. -/
theorem Clock.repeat_tick_slewCounter {c : Clock} (h0 : c.slewCounter = 0) :
    ∀ n, n < c.slewInterval → (Nat.repeat Clock.tick n c).slewCounter = n
      ∧ (Nat.repeat Clock.tick n c).slewInterval = c.slewInterval := by
  intro n
  induction n with
  | zero => exact fun _ => ⟨h0, rfl⟩
  | succ n ih =>
    intro hn
    obtain ⟨hcount, hinterval⟩ := ih (by omega)
    have hs : (Nat.repeat Clock.tick n c).slewsNext = false := by
      simp only [Clock.slewsNext, hcount, hinterval, decide_eq_false_iff_not]; omega
    obtain ⟨hc, hi⟩ := Clock.tick_of_not_slews hs
    exact ⟨by rw [Nat.repeat, hc, hcount], by rw [Nat.repeat, hi, hinterval]⟩

/-- From a slew counter of 0, the next slew tick is the K-th clock tick. -/
theorem Clock.repeat_tick_slewsNext {c : Clock} (h0 : c.slewCounter = 0) {n : Nat} (hn : n < c.slewInterval) :
    (Nat.repeat Clock.tick n c).slewsNext = decide (n + 1 = c.slewInterval) := by
  obtain ⟨hc, hi⟩ := Clock.repeat_tick_slewCounter h0 n hn
  simp only [Clock.slewsNext, hc, hi, decide_eq_decide]
  omega

/-- The slew interval of a rate in its range lies from 1000 to 60,000 (R10). -/
theorem slewInterval_mem {r : Nat} (h1 : 1 ≤ r) (h2 : r ≤ 60) : 1000 ≤ 60000 / r ∧ 60000 / r ≤ 60000 :=
  ⟨(Nat.le_div_iff_mul_le h1).2 (by omega), Nat.div_le_self _ _⟩

/-- Settles O17: the counter starts at 0 and counts K − 1 ticks before the slew tick. -/
theorem slewRateSetsInterval : Obligations.SlewRateSetsInterval := by
  refine ⟨fun tag value s => ?_, rfl, rfl, by decide⟩
  obtain ⟨t, ht⟩ : ∃ t, exec (.configureSlewRate tag value) s = .next t := ⟨_, rfl⟩
  refine ⟨t, ht, ?_⟩
  have hclock := configureSlewRate_clock ht
  unfold clampInt at hclock
  dsimp only
  generalize hr : (max 1 (min 60 value.toInt)).toNat = r at hclock ⊢
  have hr1 : 1 ≤ r := by omega
  have hr2 : r ≤ 60 := by omega
  obtain ⟨hk1, hk2⟩ := slewInterval_mem hr1 hr2
  have hcounter : t.clock.slewCounter = 0 := by rw [hclock]; rfl
  have hinterval : t.clock.slewInterval = 60000 / r := by rw [hclock]; rfl
  refine ⟨hclock, hr1, hr2, hk1, hk2, fun n hn => ?_, fun n hn => ?_⟩
  · rw [Clock.repeat_tick_slewsNext hcounter (by omega), hinterval]; exact decide_eq_false (by omega)
  · rw [Clock.repeat_tick_slewsNext hcounter (by omega), hinterval]; exact decide_eq_true hn

end Sys2Proof.Machine
end

section
/-!
PROOFS. The operations that leave the clock as it is: all but the clock's own. Each shared operation says so once, mostly as
a case of what it leaves `still`.
-/
namespace Sys2Proof.Machine

/-! ## Folds -/

/-- A fold of operations that each leave a part of the state as it is leaves it as it is. -/
theorem foldl_fixes {α β : Type} (part : State → β) (f : State → α → State) (h : ∀ t a, part (f t a) = part t)
    (l : List α) (s : State) : part (l.foldl f s) = part s := by
  induction l generalizing s with
  | nil => rfl
  | cons a l ih => rw [List.foldl_cons, ih, h]

theorem foldl_clock {α : Type} (f : State → α → State) (h : ∀ t a, (f t a).clock = t.clock) (l : List α) (s : State) :
    (l.foldl f s).clock = s.clock := foldl_fixes State.clock f h l s

variable (s : State)

/-! ## Shared operations -/

@[simp] theorem offer_clock (p : Fin 5) (c : QCell) : (offer p c s).1.clock = s.clock := still_clock (offer_still s p c)

@[simp] theorem tellLegLoss_clock (leg : Fin 4) (c : Cell) : (tellLegLoss leg c s).clock = s.clock :=
  still_clock (tellLegLoss_still s leg c)

@[simp] theorem queueLoss_clock (p : Fin 5) (r : LossReason) (k : Octet) : (queueLoss p r k s).clock = s.clock :=
  still_clock (queueLoss_still s p r k)

@[simp] theorem notify_clock (k : NoticeKind) (n : Nat) (d : List Octet) : (notify k n d s).clock = s.clock :=
  still_clock (notify_still s k n d)

@[simp] theorem offerResponse_clock (t k : Octet) (r : Result) (d : List Octet) :
    (offerResponse t k r d s).clock = s.clock := still_clock (offerResponse_still s t k r d)

@[simp] theorem offerBroadcast_clock (leg : Fin 4) : (offerBroadcast leg s).clock = s.clock :=
  still_clock (offerBroadcast_still s leg)

@[simp] theorem offerDrillState_clock (leg : Fin 4) : (offerDrillState leg s).clock = s.clock :=
  still_clock (offerDrillState_still s leg)

@[simp] theorem offerAmp_clock (k : Octet) (z : Fin 16) : (offerAmp k z s).clock = s.clock :=
  still_clock (offerAmp_still s k z)

@[simp] theorem wakeZone_clock (z : Fin 16) : (wakeZone z s).clock = s.clock := still_clock (wakeZone_still s z)

@[simp] theorem reevalZone_clock (b : Bool) (z : Fin 16) : (reevalZone b z s).clock = s.clock :=
  still_clock (reevalZone_still s b z)

@[simp] theorem noteJoined_clock (b : State) : (noteJoined b s).clock = s.clock := still_clock (noteJoined_still s b)

@[simp] theorem placeClaim_clock (c : Fin 13) (n : Nat) (w : ZoneSet) (st : Word32) :
    (placeClaim c n w st s).clock = s.clock := still_clock (placeClaim_still s c n w st)

@[simp] theorem withdrawClaim_clock (c : Fin 13) : (withdrawClaim c s).clock = s.clock :=
  still_clock (withdrawClaim_still s c)

@[simp] theorem startGen_clock (g : Fin 5) (f : Gen → Gen) : (startGen g f s).clock = s.clock :=
  still_clock (startGen_still s g f)

@[simp] theorem stopGen_clock (g : Fin 5) : (stopGen g s).clock = s.clock := still_clock (stopGen_still s g)

@[simp] theorem claimPage_clock (p : Fin 8) : (claimPage p s).clock = s.clock := still_clock (claimPage_still s p)

@[simp] theorem askChime_clock (p : Fin 8) : (askChime p s).clock = s.clock := still_clock (askChime_still s p)

@[simp] theorem reexamine_clock : (reexamine s).clock = s.clock := still_clock (reexamine_still s)

@[simp] theorem reevaluate_clock (b : State) (zs : List (Fin 16)) : (reevaluate b zs s).clock = s.clock :=
  still_clock (reevaluate_still s b zs)

@[simp] theorem changeClaim_clock (c : Fin 13) (n : Nat) (w : ZoneSet) (st : Word32) :
    (changeClaim c n w st s).clock = s.clock := still_clock (changeClaim_still s c n w st)

@[simp] theorem finishBell_clock (g : Fin 4) : (finishBell g s).clock = s.clock := still_clock (finishBell_still s g)

@[simp] theorem finishChime_clock (g : Fin 4) : (finishChime g s).clock = s.clock := still_clock (finishChime_still s g)

@[simp] theorem endPage_clock (p : Fin 8) (c : EndCause) : (endPage p c s).clock = s.clock :=
  still_clock (endPage_still s p c)

@[simp] theorem bellRequest_clock (z : ZoneSet) (p n : Nat) (o : Origin) : (bellRequest z p n o s).1.clock = s.clock :=
  still_clock (bellRequest_still s z p n o)

@[simp] theorem countClips_clock : (countClips s).clock = s.clock := by simp [countClips]

/-! ## Drills, inputs and steps of generators -/

@[simp] theorem setEg_clock : (setEg s).clock = s.clock := by unfold setEg; split <;> simp

@[simp] theorem updateRecord_clock (old new : DrillState) (c : Cause) : (updateRecord old new c s).clock = s.clock := by
  have hfinal (r : EndReason) : (finaliseRecord r s).clock = s.clock := State.modDrill_clock s _
  have hevac : (enterEvacuate s).clock = s.clock := State.modDrill_clock s _
  have hhold : (enterHold c s).clock = s.clock := State.modDrill_clock s _
  unfold updateRecord
  split
  · exact hevac
  · exact hhold
  · split <;> simp [hfinal]
  · split <;> simp [hfinal]
  all_goals rfl

@[simp] theorem sendDrillState_clock (leg : Fin 4) : (sendDrillState leg s).clock = s.clock := by
  unfold sendDrillState; split <;> simp

@[simp] theorem changeDrill_clock (new : DrillState) (c : Cause) : (changeDrill new c s).clock = s.clock := by
  simp [changeDrill, foldl_clock]

@[simp] theorem startDrill_clock (k : Bool) (t : Option Octet) (p n : Nat) (z : ZoneSet) (a : Bool) :
    (startDrill k t p n z a s).clock = s.clock := by simp [startDrill]

@[simp] theorem edgeAction_clock (i : Fin 4) (b : Bool) : (edgeAction i b s).clock = s.clock := by
  have hon : (alarmOnset s).clock = s.clock := by unfold alarmOnset; split <;> simp
  have hoff : (alarmClear s).clock = s.clock := by unfold alarmClear; split <;> simp
  have hkey : (keyAction s).clock = s.clock := by unfold keyAction; split <;> simp
  have hsilence : (silenceKey s).clock = s.clock := by unfold silenceKey; split <;> simp
  unfold edgeAction
  split <;> simp [hon, hoff, hkey, hsilence]

@[simp] theorem takeEdge_clock (i : Fin 4) : (takeEdge i s).clock = s.clock := by
  simp [takeEdge, apply_ite State.clock]

@[simp] theorem finishGen_clock (g : Fin 5) : (finishGen g s).clock = s.clock := by
  have heg (t : State) : (finishEg t).clock = t.clock := by unfold finishEg; dsimp only; split <;> simp
  unfold finishGen; dsimp only
  split
  · split <;> simp
  · simp [heg]

@[simp] theorem endStep_clock (g : Fin 5) : (endStep g s).clock = s.clock := by
  unfold endStep; dsimp only
  repeat' split
  all_goals simp

@[simp] theorem roomClear_clock (room : Nat) : (roomClear room s).clock = s.clock := by
  have hfirst : (firstClear room s).clock = s.clock := by
    unfold firstClear; dsimp only
    repeat' split
    all_goals simp
  unfold roomClear; dsimp only
  repeat' split
  all_goals simp [hfirst]

/-! ## Schedule -/

@[simp] theorem fireEntry_clock (i : Fin 128) (e : Entry) (d : Day) (n : Nat) (b : Bool) :
    (fireEntry i e d n b s).clock = s.clock := by
  have hwithheld (t : State) : (countWithheld t).clock = t.clock := by
    unfold countWithheld; dsimp only; split <;> rfl
  unfold fireEntry; dsimp only
  split
  · exact hwithheld _
  · split
    · rfl
    · exact bellRequest_clock _ _ _ _ _

@[simp] theorem examine_clock (d : Day) (w n : Nat) (l : List (Fin 128)) : (examine d w n l s).clock = s.clock := by
  induction l generalizing s with
  | nil => rfl
  | cons i l ih =>
    unfold examine
    split
    · exact ih s
    · split
      · rfl
      · split <;> simp [ih]

@[simp] theorem exchangeBanks_clock (d : Day) (n : Nat) : (exchangeBanks d n s).clock = s.clock := rfl

@[simp] theorem schedSet_clock (n : Nat) (d : Day) (w : Nat) : (schedSet n d w s).clock = s.clock := rfl

@[simp] theorem schedMidnight_clock (d : Day) (w : Nat) : (schedMidnight d w s).clock = s.clock := rfl

@[simp] theorem schedSecond_clock (n : Nat) (d : Day) (w : Nat) : (schedSecond n d w s).clock = s.clock := by
  unfold schedSecond; dsimp only
  repeat' split
  all_goals simp [swapBanks]

@[simp] theorem stepForward_clock (low : Option Nat) (n : Nat) (d : Day) (w : Nat) :
    (stepForward low n d w s).clock = s.clock := by
  unfold stepForward; dsimp only
  rw [State.modSched_clock, foldl_clock _ fun t p => by simp [skipEntry, stampSlot]]
  split <;> simp

@[simp] theorem schedStep_clock (ot : Nat) (od : Day) (nt : Nat) (nd : Day) (w : Nat) :
    (schedStep ot od nt nd w s).clock = s.clock := by
  have hleft (n : Nat) (t : State) : (countLeftovers n od t).clock = t.clock := by
    unfold countLeftovers; exact foldl_clock _ (by intros; rfl) _ t
  unfold schedStep; dsimp only
  repeat' split
  all_goals simp [hleft]

@[simp] theorem writeStaged_clock (k : Octet) (e : Option Entry) : (writeStaged k e s).clock = s.clock := by
  unfold writeStaged; split <;> rfl

/-! ## Rooms -/

@[simp] theorem broadcastIfUp_clock (leg : Fin 4) : (broadcastIfUp leg s).clock = s.clock := by
  unfold broadcastIfUp; split <;> simp

@[simp] theorem rosterStep_clock : (rosterStep s).clock = s.clock := by simp [rosterStep, foldl_clock]

@[simp] theorem setRoster_clock (leg : Fin 4) (x : RoomSet) : (setRoster leg x s).clock = s.clock :=
  foldl_clock _ (fun t r => by unfold setExpected; dsimp only; split <;> rfl) _ s

@[simp] theorem pollPoint_clock (leg : Fin 4) : (pollPoint leg s).clock = s.clock := by
  have howed (t : State) : (offerOwedBroadcast leg t).clock = t.clock := by unfold offerOwedBroadcast; split <;> simp
  have hpoll (r : Fin 32) (t : State) : (offerPoll leg r t).clock = t.clock := by
    unfold offerPoll; dsimp only; split <;> simp
  unfold pollPoint; dsimp only
  repeat' split
  all_goals simp [howed, hpoll]

@[simp] theorem takeReply_clock (leg : Fin 4) (r : Fin 32) (e : Int) : (takeReply leg r e s).clock = s.clock := by
  have hcorrect (t : State) : (offerCorrection leg r t).clock = t.clock := by
    unfold offerCorrection; dsimp only; split <;> simp
  unfold takeReply; dsimp only
  repeat' split
  all_goals simp [hcorrect]

@[simp] theorem clockReply_clock (leg : Fin 4) (r : Fin 32) (n : Word32) : (clockReply leg r n s).clock = s.clock := by
  unfold clockReply; dsimp only
  repeat' split
  all_goals simp

@[simp] theorem replyTimeout_clock (leg : Fin 4) : (replyTimeout leg s).clock = s.clock := by
  have hmiss (r : Fin 32) (t : State) : (missRoom leg r t).clock = t.clock := by
    unfold missRoom; dsimp only; split <;> simp
  unfold replyTimeout; dsimp only
  repeat' split
  all_goals simp [hmiss]

@[simp] theorem clockStateBroadcast_clock : (clockStateBroadcast s).clock = s.clock := by
  unfold clockStateBroadcast; dsimp only; split <;> simp [foldl_clock]

/-! ## Zones and their lines -/

@[simp] theorem setMode_clock (m : Mode) (z : ZoneSet) : (setMode m z s).clock = s.clock := by
  have hzone (b : State) (i : Fin 16) (t : State) : (reevalMode b i t).clock = t.clock := by
    unfold reevalMode; dsimp only; split <;> simp
  unfold setMode
  rw [reexamine_clock, foldl_clock _ fun t z => hzone s z t, noteJoined_clock, foldl_clock]
  intros; rfl

@[simp] theorem restZone_clock (z : Fin 16) : (restZone z s).clock = s.clock := by simp [restZone]

@[simp] theorem endWake_clock (z : Fin 16) : (endWake z s).clock = s.clock := by simp [endWake]

@[simp] theorem ampReady_clock (leg : Fin 4) (k : Octet) : (ampReady leg k s).clock = s.clock := by
  unfold ampReady; dsimp only
  repeat' split
  all_goals rfl

@[simp] theorem changeTest_clock (z : Fin 16) (x : TestState) : (changeTest z x s).clock = s.clock := by simp [changeTest]

@[simp] theorem startTest_clock (leg k : Fin 4) : (startTest leg k s).clock = s.clock := by
  unfold startTest; dsimp only; split <;> simp

@[simp] theorem setHealth_clock (z : Fin 16) (h : Health) (i : Option Octet) : (setHealth z h i s).clock = s.clock := by
  unfold setHealth; dsimp only; split <;> simp

@[simp] theorem lineResult_clock (leg : Fin 4) (k n c i : Octet) : (lineResult leg k n c i s).clock = s.clock := by
  unfold lineResult; dsimp only
  repeat' split
  all_goals simp

@[simp] theorem testTimeout_clock (leg : Fin 4) : (testTimeout leg s).clock = s.clock := by
  unfold testTimeout; dsimp only
  repeat' split
  all_goals simp

@[simp] theorem abortTestByLeg_clock (leg : Fin 4) : (abortTestByLeg leg s).clock = s.clock := by
  unfold abortTestByLeg; split <;> simp

/-! ## Pages -/

@[simp] theorem startOrWait_clock (p : Fin 8) : (startOrWait p s).clock = s.clock := by
  unfold startOrWait; split <;> simp [startPage]

@[simp] theorem changePage_clock (p : Fin 8) (w : ZoneSet) : (changePage p w s).clock = s.clock := by
  unfold changePage; dsimp only; split <;> simp

/-! ## Parameters and READ -/

@[simp] theorem setDrillFloor_clock (n : Nat) : (setDrillFloor n s).clock = s.clock := by
  unfold setDrillFloor; dsimp only; split <;> simp

@[simp] theorem offerParts_clock (t : Octet) (l : List Octet) : (offerParts t l s).clock = s.clock := by
  simp [offerParts, foldl_clock]

/-- A READ leaves the clock as its item leaves it. -/
theorem readGroup_clock {group : Nat → Bool → State → ReadItem}
    (h : ∀ n clear l t, group n clear s = some (l, t) → t.clock = s.clock) (tag : Octet) (item : Word16) (clear : Bool) :
    (readGroup tag group item clear s).clock = s.clock := by
  unfold readGroup answerRead
  split
  · next hitem => rw [offerParts_clock, h _ _ _ _ hitem]
  · simp

/-! ## Links and dispatch -/

@[simp] theorem changeTrunk_clock (up : Bool) : (changeTrunk up s).clock = s.clock := by simp [changeTrunk]

@[simp] theorem legDown_clock (leg : Fin 4) : (legDown leg s).clock = s.clock := by
  have hcell (c : QCell) (t : State) : (flushCell leg c t).clock = t.clock := by
    unfold flushCell; dsimp only; split <;> simp
  have hflush (t : State) : (flushLeg leg t).clock = t.clock := by
    unfold flushLeg; dsimp only; split <;> simp [foldl_clock, hcell]
  simp [legDown, hflush]

@[simp] theorem legUp_clock (leg : Fin 4) : (legUp leg s).clock = s.clock := by
  unfold legUp; dsimp only
  repeat' split
  all_goals simp

@[simp] theorem depart_clock (p : Fin 5) : (depart p s).clock = s.clock := by
  have htell (c : Cell) (t : State) : (tellDeparture p c t).clock = t.clock := by
    unfold tellDeparture; repeat' split
    all_goals rfl
  unfold depart
  repeat' split
  · simp [departCell, htell]
  all_goals rfl

@[simp] theorem misaddress_clock : (misaddress s).clock = s.clock := rfl

@[simp] theorem tableDrop_clock : (tableDrop s).clock = s.clock := rfl

@[simp] theorem forward_clock (p : Fin 5) (e : DispatchEntry) (c : Cell) : (forward p e c s).clock = s.clock := by
  unfold forward; split <;> simp

@[simp] theorem commandReset_clock : (commandReset s).clock = s.clock := by
  have harb (t : State) : (resetArbiter t).clock = t.clock := foldl_clock _ (by intros; rfl) _ t
  have hpages (t : State) : (resetPages t).clock = t.clock := by
    unfold resetPages; rw [foldl_clock, foldl_clock] <;> intros <;> rfl
  have htests (t : State) : (resetTests t).clock = t.clock := by
    unfold resetTests; rw [foldl_clock, foldl_clock] <;> intros <;> rfl
  have hpolls (t : State) : (resetPolls t).clock = t.clock := foldl_clock _ (by intros; rfl) _ t
  have hdrill (t : State) : (resetDrill t).clock = t.clock := rfl
  have hcommit (t : State) : (resetCommit t).clock = t.clock := rfl
  rw [commandReset, reevaluate_clock, hdrill, hpolls, hcommit, htests, hpages, harb]

end Sys2Proof.Machine
end

section
/-!
PROOFS. What a switch frame does, stage by stage: the frames it sends, its audio, the contacts, reception, the two phases.
-/
namespace Sys2Proof.Machine

/-! ## Folds over members, each of which touches its own part -/

/-- A fold in which step i changes the part of member i by g, and no other, changes the part of each member once. -/
theorem foldl_at {ι β : Type} [DecidableEq ι] (part : State → ι → β) (g : ι → β → β) (f : State → ι → State)
    (hsame : ∀ t i, part (f t i) i = g i (part t i)) (hother : ∀ t i j, j ≠ i → part (f t i) j = part t j) (l : List ι)
    (hl : l.Nodup) (s : State) (i : ι) : part (l.foldl f s) i = if i ∈ l then g i (part s i) else part s i := by
  induction l generalizing s with
  | nil => simp
  | cons j l ih =>
    obtain ⟨hj, hl⟩ := List.nodup_cons.1 hl
    rw [List.foldl_cons, ih hl]
    by_cases hij : i = j
    · subst hij; simp [hj, hsame]
    · simp [hij, hother]

/-- The same over all members. -/
theorem foldl_finRange_at {n : Nat} {β : Type} (part : State → Fin n → β) (g : Fin n → β → β) (f : State → Fin n → State)
    (hsame : ∀ t i, part (f t i) i = g i (part t i)) (hother : ∀ t i j, j ≠ i → part (f t i) j = part t j) (s : State)
    (i : Fin n) : part ((List.finRange n).foldl f s) i = g i (part s i) := by
  rw [foldl_at part g f hsame hother _ (List.nodup_finRange n), if_pos (List.mem_finRange i)]

/-! ## One member of a vector changed -/

theorem modPort_same (s : State) (p : Fin 5) (f : Port → Port) : (s.modPort p f).ports[p] = f s.ports[p] := by simp

theorem modPort_other (s : State) {p q : Fin 5} (h : q ≠ p) (f : Port → Port) : (s.modPort p f).ports[q] = s.ports[q] := by
  simp [Fin.val_ne_of_ne h.symm]

theorem modInput_same (s : State) (i : Fin 4) (f : Input → Input) : (s.modInput i f).inputs[i] = f s.inputs[i] := by simp

theorem modInput_other (s : State) {i j : Fin 4} (h : j ≠ i) (f : Input → Input) :
    (s.modInput i f).inputs[j] = s.inputs[j] := by
  simp [Fin.val_ne_of_ne h.symm]

/-! ## The stages -/

/-- The frame opens: its own events are due, its contest is empty, the ports send their frames. -/
def frameOpen (s : State) : State := sendFrames ((s.setDue (frameEvents s)).modContest fun _ => Contest.none)

/-- The four contacts are sampled. -/
def sampleContacts (now : Word32) (contacts : InputSet) (s : State) : State :=
  (List.finRange 4).foldl (fun t i => sampleContact now contacts i t) s

/-! ## Audio -/

theorem detect_eq (now : Word32) (src : Sources) (p : Fin 8) (s : State) :
    detect now src p s = { s with detectors := (detect now src p s).detectors, pages := (detect now src p s).pages } := by
  unfold detect; dsimp only
  split <;> rfl

/-- A detector restamps the silence stamp of a page, and changes no other field of any page. -/
theorem detect_page (now : Word32) (src : Sources) (p q : Fin 8) (s : State) (x : Option Word32) :
    { (detect now src p s).pages[q] with silenceStamp := x } = { s.pages[q] with silenceStamp := x } := by
  unfold detect; dsimp only
  split
  · by_cases hq : q = p
    · subst hq; simp
    · simp [Fin.val_ne_of_ne (Ne.symm hq)]
  · rfl

/-- A state without what the audio of a frame touches: slot samples, clip counts due, phases of generators, detectors and
silence stamps. -/
def State.mute (s : State) : State := { s with
  slotSamples := Vector.replicate 16 0
  clipDue := 0
  gens := Vector.ofFn fun g => { s.gens[g] with phase := 0 }
  detectors := Vector.replicate 8 { envelope := 0, active := false }
  pages := Vector.ofFn fun p => { s.pages[p] with silenceStamp := none } }

@[simp] theorem detect_mute (now : Word32) (src : Sources) (p : Fin 8) (s : State) :
    (detect now src p s).mute = s.mute := by
  have hpages : (Vector.ofFn fun q : Fin 8 => { (detect now src p s).pages[q] with silenceStamp := none })
      = Vector.ofFn fun q : Fin 8 => { s.pages[q] with silenceStamp := none } := by
    simp only [detect_page]
  have hother : detect now src p s
      = { s with detectors := (detect now src p s).detectors, pages := (detect now src p s).pages } := detect_eq now src p s
  unfold State.mute
  rw [hpages, hother]

@[simp] theorem mixZones_mute (src : Sources) (s : State) : (mixZones src s).mute = s.mute := by
  simp [mixZones, State.mute, State.setSlotSamples, State.setClipDue]

@[simp] theorem advanceGens_mute (s : State) : (advanceGens s).mute = s.mute := by
  have hgens : (Vector.ofFn fun g : Fin 5 => { (advanceGens s).gens[g] with phase := 0 })
      = Vector.ofFn fun g : Fin 5 => { s.gens[g] with phase := 0 } := by
    congr 1; funext g
    simp only [advanceGens, Fin.getElem_fin, Vector.getElem_ofFn, Gen.advance]
    split <;> rfl
  unfold State.mute
  rw [hgens]; rfl

/-- The audio of a frame leaves all else as it is. -/
theorem frameAudio_fixes {β : Type} (part : State → β) (h : ∀ t, part t.mute = part t) (x : FrameInput) (s : State) :
    part (frameAudio x s) = part s := by
  have hmute : (frameAudio x s).mute = s.mute := by
    unfold frameAudio; dsimp only
    rw [foldl_fixes State.mute _ (fun t p => detect_mute _ _ p t), advanceGens_mute, mixZones_mute]
  rw [← h, hmute, h]

/-! ## Contacts -/

/-- A state without the contacts' records. -/
def State.offInputs (s : State) : State := { s with inputs := Vector.replicate 4 (Input.reset false) }

/-- Sampling the contacts leaves all but their records as it is. -/
theorem sampleContacts_fixes {β : Type} (part : State → β) (h : ∀ t, part t.offInputs = part t) (now : Word32)
    (contacts : InputSet) (s : State) : part (sampleContacts now contacts s) = part s := by
  have hmask : (sampleContacts now contacts s).offInputs = s.offInputs :=
    foldl_fixes State.offInputs _ (fun t i => by unfold sampleContact; dsimp only; split <;> rfl) _ s
  rw [← h, hmask, h]

/-- A contact's record takes the raw level, and a change stamp where the level changed. -/
def Input.sample (now : Word32) (raw : Bool) (i : Input) : Input :=
  if i.raw = raw then i else { i with raw, changeStamp := now }

theorem sampleContacts_input (now : Word32) (contacts : InputSet) (s : State) (i : Fin 4) :
    (sampleContacts now contacts s).inputs[i] = s.inputs[i].sample now (contacts.getLsbD i.val) := by
  refine foldl_finRange_at (fun t i => t.inputs[i]) (fun i r => r.sample now (contacts.getLsbD i.val)) _ ?_ ?_ s i
  · intro t i
    unfold sampleContact Input.sample; dsimp only
    split
    · rfl
    · exact modInput_same _ _ _
  · intro t i j hj
    unfold sampleContact; dsimp only
    split
    · rfl
    · exact modInput_other _ hj _

/-! ## Reception -/

/-- A port takes what arrives at it: assembler and counts. -/
def Port.taken (input : FrameInput) (cap : Capture) (p : Fin 5) (x : Port) : Port :=
  Port.count p (arrivalAt input p) (x.receive p cap (arrivalAt input p)).1

/-- The events that a port brings by what arrives at it. -/
def portEvents (input : FrameInput) (cap : Capture) (p : Fin 5) (x : Port) : List Instr :=
  syncEvent p (x.taken input cap p) ++ cellEvent p (x.receive p cap (arrivalAt input p)).2

theorem receive_eq (input : FrameInput) (cap : Capture) (p : Fin 5) (s : State) :
    receive input cap p s = (s.modPort p (Port.taken input cap p)).setDue (s.due ++ portEvents input cap p s.ports[p]) := by
  unfold portEvents; rw [← List.append_assoc]; rfl

/-- A state without the ports and the events due. -/
def State.offPorts (s : State) : State := { s with ports := Vector.replicate 5 Port.reset, due := [] }

/-- Reception leaves all but the ports and the events due as it is. -/
theorem frameReception_fixes {β : Type} (part : State → β) (h : ∀ t, part t.offPorts = part t) (input : FrameInput)
    (s : State) : part (frameReception input s) = part s := by
  have hmask : (frameReception input s).offPorts = s.offPorts :=
    foldl_fixes State.offPorts _ (fun t p => by rw [receive_eq]; rfl) _ s
  rw [← h, hmask, h]

theorem frameReception_port (input : FrameInput) (s : State) (p : Fin 5) :
    (frameReception input s).ports[p] = s.ports[p].taken input s.capture p := by
  unfold frameReception; dsimp only
  exact foldl_finRange_at (fun t p => t.ports[p]) (fun p x => x.taken input s.capture p)
    (fun t p => receive input s.capture p t)
    (fun t p => by rw [receive_eq]; exact modPort_same _ _ _)
    (fun t p q hq => by rw [receive_eq]; exact modPort_other _ hq _) s p

/-- The events that reception brings, port by port. -/
theorem frameReception_due (input : FrameInput) (s : State) : (frameReception input s).due =
    s.due ++ (List.finRange 5).flatMap fun p => portEvents input s.capture p s.ports[p] := by
  have hfold (cap : Capture) (l : List (Fin 5)) (hl : l.Nodup) (t : State) :
      (l.foldl (fun u p => receive input cap p u) t).due = t.due ++ l.flatMap fun p => portEvents input cap p t.ports[p] := by
    induction l generalizing t with
    | nil => simp
    | cons p l ih =>
      obtain ⟨hp, hl⟩ := List.nodup_cons.1 hl
      have hother : l.flatMap (fun q => portEvents input cap q (receive input cap p t).ports[q])
          = l.flatMap fun q => portEvents input cap q t.ports[q] :=
        congrArg List.flatten <| List.map_congr_left fun q hq => by
          have hne : q ≠ p := fun h => hp (h ▸ hq)
          rw [receive_eq, State.setDue_ports, modPort_other _ hne]
      rw [List.foldl_cons, ih hl, hother, receive_eq, State.setDue_due, List.flatMap_cons, List.append_assoc]
  exact hfold s.capture _ (List.nodup_finRange 5) s

/-! ## The whole frame -/

/-- A state without the two phases and the rest of the clock. -/
def State.offPhases (s : State) : State := { s with tickPhase := 0, clock := Clock.reset }

section
variable (x : FrameInput) (s : State)

/-- The state that reception meets. -/
def beforeReception : State := sampleContacts s.frameElapsed x.contacts (frameAudio x (frameOpen s))

/-- Between the opening of a frame and reception, ports and events stand, and the capture record is that of the frame. -/
theorem beforeReception_ports : (beforeReception x s).ports = (frameOpen s).ports :=
  (sampleContacts_fixes State.ports (fun _ => rfl) _ _ _).trans (frameAudio_fixes State.ports (fun _ => rfl) _ _)

theorem beforeReception_due : (beforeReception x s).due = frameEvents s :=
  (sampleContacts_fixes State.due (fun _ => rfl) _ _ _).trans (frameAudio_fixes State.due (fun _ => rfl) _ _)

theorem beforeReception_capture : (beforeReception x s).capture = s.capture :=
  (sampleContacts_fixes State.capture (fun _ => rfl) _ _ _).trans (frameAudio_fixes State.capture (fun _ => rfl) _ _)

theorem beginFrame_eq :
    beginFrame x s = advanceTickPhase (advanceFramePhase (frameReception x (beforeReception x s))) := rfl

/-- The two phases are all that the end of a frame changes. -/
theorem beginFrame_fixes {β : Type} (part : State → β) (h : ∀ t, part t.offPhases = part t) :
    part (beginFrame x s) = part (frameReception x (beforeReception x s)) := by
  have hmask (t : State) : (advanceTickPhase (advanceFramePhase t)).offPhases = t.offPhases := by
    unfold advanceFramePhase; split <;> rfl
  rw [← h, ← h (frameReception _ _), beginFrame_eq, hmask]

/-- From its opening to its two phases, a frame leaves all but audio, contacts, ports and events as it is. -/
theorem frameBody_fixes {β : Type} (part : State → β) (hports : ∀ t, part t.offPorts = part t)
    (hinputs : ∀ t, part t.offInputs = part t) (haudio : ∀ t, part t.mute = part t) :
    part (frameReception x (beforeReception x s)) = part (frameOpen s) := by
  rw [frameReception_fixes part hports, beforeReception, sampleContacts_fixes part hinputs, frameAudio_fixes part haudio]

theorem beginFrame_port (p : Fin 5) :
    (beginFrame x s).ports[p] = s.ports[p].sendPiece.taken x s.capture p := by
  have hp : (frameOpen s).ports[p] = s.ports[p].sendPiece := by simp [frameOpen, sendFrames]
  rw [beginFrame_fixes x s State.ports (fun _ => rfl), frameReception_port, beforeReception_capture,
    beforeReception_ports, hp]

theorem beginFrame_due : (beginFrame x s).due = frameEvents s ++
    (List.finRange 5).flatMap fun p => portEvents x s.capture p s.ports[p].sendPiece := by
  have hp (p : Fin 5) : (frameOpen s).ports[p] = s.ports[p].sendPiece := by simp [frameOpen, sendFrames]
  rw [beginFrame_fixes x s State.due (fun _ => rfl), frameReception_due, beforeReception_capture,
    beforeReception_ports, beforeReception_due]
  simp only [hp]

/-! ### The two phases -/

theorem beginFrame_clock : (beginFrame x s).clock = (advanceFramePhase s).clock := by
  have hbody : (frameReception x (beforeReception x s)).clock = s.clock :=
    frameBody_fixes x s State.clock (fun _ => rfl) (fun _ => rfl) (fun _ => rfl)
  have htick (t : State) : (advanceTickPhase t).clock = t.clock := rfl
  rw [beginFrame_eq, htick]
  unfold advanceFramePhase State.ticksClock
  rw [hbody]
  split
  · exact hbody
  · simp only [State.modClock_clock, hbody]

theorem beginFrame_tickPhase : (beginFrame x s).tickPhase = if s.tickPhase = 7 then 7 else s.tickPhase + 1 := by
  have hbody : (frameReception x (beforeReception x s)).tickPhase = s.tickPhase :=
    frameBody_fixes x s State.tickPhase (fun _ => rfl) (fun _ => rfl) (fun _ => rfl)
  have hphase (t : State) : (advanceFramePhase t).tickPhase = t.tickPhase := by
    unfold advanceFramePhase; split <;> rfl
  rw [beginFrame_eq, advanceTickPhase]
  simp only [State.ticksMs, hphase, hbody, beq_iff_eq]

/-! ### Links, contacts, contest -/

theorem beginFrame_sent : (beginFrame x s).sent = s.sending :=
  (beginFrame_fixes x s State.sent fun _ => rfl).trans
    (frameBody_fixes x s State.sent (fun _ => rfl) (fun _ => rfl) (fun _ => rfl))

theorem beginFrame_sending (p : Fin 5) : (beginFrame x s).sending[p] = nextFrame s p := by
  have hbody : (beginFrame x s).sending = (frameOpen s).sending :=
    (beginFrame_fixes x s State.sending fun _ => rfl).trans
      (frameBody_fixes x s State.sending (fun _ => rfl) (fun _ => rfl) (fun _ => rfl))
  rw [hbody]
  simp [frameOpen, sendFrames]
  rfl

theorem beginFrame_contest : (beginFrame x s).contest = Contest.none :=
  (beginFrame_fixes x s State.contest fun _ => rfl).trans
    (frameBody_fixes x s State.contest (fun _ => rfl) (fun _ => rfl) (fun _ => rfl))

theorem beginFrame_input (i : Fin 4) :
    (beginFrame x s).inputs[i] = s.inputs[i].sample s.frameElapsed (x.contacts.getLsbD i.val) := by
  have hopen : (frameAudio x (frameOpen s)).inputs = s.inputs := frameAudio_fixes State.inputs (fun _ => rfl) _ _
  rw [beginFrame_fixes x s State.inputs (fun _ => rfl), frameReception_fixes State.inputs (fun _ => rfl),
    beforeReception, sampleContacts_input, hopen]

/-! ### Pages, generators, and what stays -/

/-- A page without its silence stamp. -/
def Page.unstamped (g : Page) : Page := { g with silenceStamp := none }

theorem Page.eq_of_unstamped {g k : Page} (h : g.unstamped = k.unstamped) :
    g = { k with silenceStamp := g.silenceStamp } := by
  cases g; cases k; simp_all [Page.unstamped]

/-- A generator without its phase. -/
def Gen.unphased (g : Gen) : Gen := { g with phase := 0 }

theorem Gen.eq_of_unphased {g k : Gen} (h : g.unphased = k.unphased) : g = { k with phase := g.phase } := by
  cases g; cases k; simp_all [Gen.unphased]

def State.pageUnstamped (p : Fin 8) (s : State) : Page := s.pages[p].unstamped

def State.genUnphased (g : Fin 5) (s : State) : Gen := s.gens[g].unphased

/-- Of a page, a frame touches the silence stamp alone. -/
theorem beginFrame_page (p : Fin 8) :
    (beginFrame x s).pages[p] = { s.pages[p] with silenceStamp := (beginFrame x s).pages[p].silenceStamp } := by
  have hpart : (beginFrame x s).pageUnstamped p = s.pageUnstamped p := by
    rw [beginFrame_fixes x s (State.pageUnstamped p) (fun _ => rfl), frameBody_fixes x s (State.pageUnstamped p)
      (fun _ => rfl) (fun _ => rfl) (fun t => by simp [State.pageUnstamped, State.mute, Page.unstamped])]
    rfl
  exact Page.eq_of_unstamped hpart

/-- Of a generator, a frame touches the phase alone. -/
theorem beginFrame_gen (g : Fin 5) :
    (beginFrame x s).gens[g] = { s.gens[g] with phase := (beginFrame x s).gens[g].phase } := by
  have hpart : (beginFrame x s).genUnphased g = s.genUnphased g := by
    rw [beginFrame_fixes x s (State.genUnphased g) (fun _ => rfl), frameBody_fixes x s (State.genUnphased g)
      (fun _ => rfl) (fun _ => rfl) (fun t => by simp [State.genUnphased, State.mute, Gen.unphased])]
    rfl
  exact Gen.eq_of_unphased hpart

/-- A state without all that a frame touches. -/
def State.offFrame (s : State) : State := { s with
  tickPhase := 0
  clock := Clock.reset
  gens := Vector.replicate 5 (Gen.reset .bell)
  pages := Vector.replicate 8 Page.reset
  detectors := Vector.replicate 8 { envelope := 0, active := false }
  slotSamples := Vector.replicate 16 0
  inputs := Vector.replicate 4 (Input.reset false)
  ports := Vector.replicate 5 Port.reset
  sending := Vector.replicate 5 OutFrame.none
  sent := Vector.replicate 5 OutFrame.none
  contest := Contest.none
  clipDue := 0
  due := [] }

/-- Zones, claims, schedule, rooms, drill, parameters and tables stand through a frame. -/
theorem beginFrame_offFrame : (beginFrame x s).offFrame = s.offFrame := by
  rw [beginFrame_fixes x s State.offFrame (fun _ => rfl),
    frameBody_fixes x s State.offFrame (fun _ => rfl) (fun _ => rfl) (fun _ => rfl)]
  rfl

end

end Sys2Proof.Machine
end

section
/-!
PROOFS. The moves of the clock: a property of the clock that they keep is kept by every step. The correction below the step
threshold is one.
-/
namespace Sys2Proof.Machine

/-- A property of the clock that a line reset establishes and every move of the clock keeps: the frame phase, the clock tick,
holdover, the three outcomes of TIME with its common end, the four parameters, and a READ that clears the counters. -/
structure ClockKept (P : Clock → Prop) : Prop where
  reset : P Clock.reset
  phase : ∀ c n, P c → n = 7 ∨ (c.framePhase ≠ 7 ∧ n = c.framePhase + 1) → P { c with framePhase := n }
  tick : ∀ c, P c → P c.tick
  holdover : ∀ c n, P c → P { c with state := .holdover, holdovers := n }
  accept : ∀ c st, P c → P { c with lastAccept := some st, state := .locked }
  set : ∀ c t d w n, P c → t < dayMs → w < 7 → P { c with
    timeOfDay := t, day := d, weekday := w, framePhase := 0, correction := 0, sets := n }
  step : ∀ c e, P c → P (c.stepBy e)
  slew : ∀ c e n, P c → e.natAbs < c.stepThreshold → P { c with correction := e, slews := n }
  threshold : ∀ c n, P c → 100 ≤ n → n ≤ 60000 → P (c.setStepThreshold n)
  rate : ∀ c n, P c → 1 ≤ n → n ≤ 60 → P (c.setSlewRate n)
  limit : ∀ c n, P c → 10 ≤ n → n ≤ 3600 → P { c with holdoverLimit := n }
  trim : ∀ c v, P c → -200 ≤ v → v ≤ 200 → P { c with frameTrim := v }
  clear : ∀ c, P c → P { c with sets := 0, steps := 0, slews := 0, holdovers := 0 }

/-! ## How commands, events and cells are taken -/

variable {P : Clock → Prop} {s : State}

theorem onCommand_keeps {c : Instr} {act : State → State} (h : ∀ t, P t.clock → P (act t).clock) (hs : P s.clock) :
    P (s.onCommand c act).clock := by
  rw [onCommand_eq]; exact h _ (by simpa using hs)

theorem onCell_keeps {c : Instr} {act : State → State} (h : ∀ t, P t.clock → P (act t).clock) (hs : P s.clock) :
    P (s.onCell c act).clock := by
  unfold State.onCell; exact h _ (by simpa using hs)

theorem onEvent_keeps {c : Instr} {act : State → State} (h : ∀ t, P t.clock → P (act t).clock) (hs : P s.clock) :
    P (s.onEvent c act).clock := by
  unfold State.onEvent; dsimp only
  split
  · exact h _ (by simpa using hs)
  · simpa using hs

/-! ## The clock's own operations -/

theorem clockTick_clock (s : State) : (clockTick s).clock = s.clock.tick := by
  unfold clockTick; dsimp only
  repeat' split
  all_goals simp

theorem enterHoldover_clock (s : State) :
    (enterHoldover s).clock = { s.clock with state := .holdover, holdovers := bump s.clock.holdovers } := by
  simp [enterHoldover, noticeClockState]

theorem acceptTime_clock (tag : Octet) (o : TimeOutcome) (e : Int) (s : State) :
    (acceptTime tag o e s).clock = { s.clock with lastAccept := some s.elapsed, state := .locked } := by
  unfold acceptTime noticeClockState; dsimp only; split <;> simp

theorem setClock_clock (tref : Nat) (dref : Day) (wref : Nat) (cap : Capture) (s : State) :
    (setClock tref dref wref cap s).clock = { s.clock with
      timeOfDay := (tref + since s.elapsed cap.elapsed) % dayMs
      day := dref + BitVec.ofNat 16 ((tref + since s.elapsed cap.elapsed) / dayMs)
      weekday := addWeekday wref ((tref + since s.elapsed cap.elapsed) / dayMs : Nat)
      framePhase := 0, correction := 0, sets := bump s.clock.sets } := by
  simp [setClock]

theorem stepClock_clock (e : Int) (s : State) : (stepClock e s).clock = s.clock.stepBy e := by simp [stepClock]

/-- What TIME can do to the clock: nothing where it is refused, else a set, a step or a slew, and then its common end. -/
theorem time_cases (tag : Octet) (tref : Word32) (dref : Day) (wref : Octet) (force : Bool) (cap : Capture) (s : State) :
    (time tag tref dref wref force cap s).clock = s.clock
    ∨ ∃ u st, (time tag tref dref wref force cap s).clock = { u with lastAccept := some st, state := .locked }
      ∧ (u = (setClock tref.toNat dref wref.toNat cap s).clock
        ∨ u = s.clock.stepBy (timeError tref.toNat dref cap)
        ∨ (timeError tref.toNat dref cap).natAbs < s.clock.stepThreshold
          ∧ u = { s.clock with correction := timeError tref.toNat dref cap, slews := bump s.clock.slews }) := by
  unfold time; dsimp only
  split
  · exact .inl (by simp)
  · split
    · exact .inr ⟨_, _, acceptTime_clock _ _ _ _, .inl rfl⟩
    · split
      · exact .inr ⟨_, _, acceptTime_clock _ _ _ _, .inr (.inl (stepClock_clock _ _))⟩
      · next hslew => exact .inr ⟨_, _, acceptTime_clock _ _ _ _, .inr (.inr ⟨by omega, rfl⟩)⟩

theorem addWeekday_lt (w : Nat) (q : Int) : addWeekday w q < 7 := by unfold addWeekday; omega

section
variable (h : ClockKept P)
include h

theorem time_keeps (tag : Octet) (tref : Word32) (dref : Day) (wref : Octet) (force : Bool) (cap : Capture)
    (hs : P s.clock) : P (time tag tref dref wref force cap s).clock := by
  obtain hsame | ⟨u, st, hu, hcase⟩ := time_cases tag tref dref wref force cap s
  · rwa [hsame]
  · rw [hu]
    refine h.accept _ _ ?_
    obtain rfl | rfl | ⟨he, rfl⟩ := hcase
    · rw [setClock_clock]
      exact h.set _ _ _ _ _ hs (Nat.mod_lt _ (by decide)) (addWeekday_lt _ _)
    · exact h.step _ _ hs
    · exact h.slew _ _ _ hs he

/-- A quantity within its range goes to the clock by the clock's moves, or leaves it. -/
theorem setQuantity_keeps {n : Nat} {lo hi v : Int} (hn : quantityRange n = some (lo, hi)) (h1 : lo ≤ v) (h2 : v ≤ hi)
    (hs : P s.clock) : P (s.setQuantity n v).clock := by
  unfold State.setQuantity; dsimp only
  split
  case h_1 => cases hn; exact h.threshold _ _ hs (by omega) (by omega)
  case h_2 => cases hn; exact h.rate _ _ hs (by omega) (by omega)
  case h_3 => cases hn; exact h.limit _ _ hs (by omega) (by omega)
  case h_4 => cases hn; exact h.trim _ _ hs h1 h2
  all_goals simpa using hs

theorem writeRanged_keeps (tag : Octet) (n : Nat) (value : Word32) (hs : P s.clock) :
    P (writeRanged tag n value s).clock := by
  unfold writeRanged
  split
  · next lo hi hn =>
    have hle : lo ≤ hi := by
      unfold quantityRange at hn
      split at hn <;> cases hn <;> decide
    obtain ⟨h1, h2⟩ := clampInt_mem value.toInt hle
    simpa [writeQuantity, answerConfigure] using setQuantity_keeps h hn h1 h2 hs
  · simpa using hs

end

end Sys2Proof.Machine
end

section
/-!
PROOFS. Every step keeps what the moves of the clock keep: the commands, the events, the frame, the line reset.
-/
namespace Sys2Proof.Machine

/-! ## The commands that leave the clock as it is -/

section
variable (t : State)

@[simp] theorem configureThreshold_clock (tag : Octet) (high : Bool) (v : Word32) :
    (configureThreshold tag high v t).clock = t.clock := by
  cases high <;> simp [configureThreshold, writeQuantity, answerConfigure, State.setQuantity]

@[simp] theorem configureEdges_clock (tag : Octet) (rise : Bool) (v : Word32) (op : Octet) :
    (configureEdges tag rise v op t).clock = t.clock := by
  unfold configureEdges
  split
  · unfold answerConfigure
    rw [respond_clock, foldl_clock]
    intros; rfl
  · simp

@[simp] theorem pageOpen_clock (tag channel prio : Octet) (z : ZoneSet) (chime : Octet) (a b c : Bool) :
    (pageOpen tag channel prio z chime a b c t).clock = t.clock := by
  unfold pageOpen; dsimp only
  repeat' split
  all_goals simp [excuseNone]

@[simp] theorem pageChange_clock (tag channel : Octet) (op : Nat) (z : ZoneSet) :
    (pageChange tag channel op z t).clock = t.clock := by
  unfold pageChange; dsimp only
  repeat' split
  all_goals simp

@[simp] theorem pageClose_clock (tag channel : Octet) : (pageClose tag channel t).clock = t.clock := by
  unfold pageClose; dsimp only
  repeat' split
  all_goals simp

@[simp] theorem bellNow_clock (tag : Octet) (z : ZoneSet) (p n : Octet) : (bellNow tag z p n t).clock = t.clock := by
  unfold bellNow; dsimp only
  repeat' split
  all_goals simp

@[simp] theorem answerPattern_clock (tag : Octet) (op i : Nat) (r : Result) (d : List Octet) :
    (answerPattern tag op i r d t).clock = t.clock := by simp [answerPattern]

@[simp] theorem patternDefine_clock (tag p : Octet) (a b m : Word16) (inv : Bool) (r n : Octet) :
    (patternDefine tag p a b m inv r n t).clock = t.clock := by
  unfold patternDefine; dsimp only
  split <;> simp [answerPattern_clock]

@[simp] theorem patternSteps_clock (tag first : Octet) (w : Vector Word16 4) (n : Fin 4) :
    (patternSteps tag first w n t).clock = t.clock := by
  unfold patternSteps; dsimp only
  repeat' split
  all_goals simp [answerPattern_clock]

@[simp] theorem patternStore_clock (tag : Octet) : (patternStore tag t).clock = t.clock := by
  unfold patternStore
  repeat' split
  all_goals simp [answerPattern_clock]

@[simp] theorem patternEmpty_clock (tag p : Octet) : (patternEmpty tag p t).clock = t.clock := by
  unfold patternEmpty
  repeat' split
  all_goals simp [answerPattern_clock]

@[simp] theorem scheduleWriteEntry_clock (tag k : Octet) (n : Word32) (d : DaySet) (z : ZoneSet) (p r : Octet) (a b : Bool) :
    (scheduleWriteEntry tag k n d z p r a b t).clock = t.clock := by
  unfold scheduleWriteEntry answerScheduleWrite; dsimp only
  repeat' split
  all_goals simp

@[simp] theorem scheduleWriteEmpty_clock (tag k : Octet) : (scheduleWriteEmpty tag k t).clock = t.clock := by
  unfold scheduleWriteEmpty answerScheduleWrite
  repeat' split
  all_goals simp

@[simp] theorem scheduleCommit_clock (tag : Octet) : (scheduleCommit tag t).clock = t.clock := by
  unfold scheduleCommit swapAtOnce
  repeat' split
  all_goals simp

@[simp] theorem holidayAdd_clock (tag : Octet) (d : Day) : (holidayAdd tag d t).clock = t.clock := by
  unfold holidayAdd answerHoliday
  repeat' split
  all_goals simp

@[simp] theorem zoneAudio_clock (tag : Octet) (z : ZoneSet) (a b : Word16) (c : Octet) (n : Bool) (d : Octet) :
    (zoneAudio tag z a b c n d t).clock = t.clock := by
  unfold zoneAudio; dsimp only
  split
  · simp
  · rw [respond_clock, foldl_clock]
    intros; rfl

@[simp] theorem zoneMode_clock (tag : Octet) (z : ZoneSet) (m : Octet) : (zoneMode tag z m t).clock = t.clock := by
  unfold zoneMode; split <;> simp

@[simp] theorem supervise_clock (tag : Octet) (z : ZoneSet) : (supervise tag z t).clock = t.clock := by
  unfold supervise; dsimp only
  rw [respond_clock, reevaluate_clock, foldl_clock]
  intros; rfl

@[simp] theorem rosterWrite_clock (tag l : Octet) (op : Nat) (x : RoomSet) : (rosterWrite tag l op x t).clock = t.clock := by
  unfold rosterWrite; dsimp only
  repeat' split
  all_goals simp

@[simp] theorem drillStart_clock (tag p : Octet) (g : Word16) (z : ZoneSet) (a : Bool) :
    (drillStart tag p g z a t).clock = t.clock := by
  unfold drillStart; split <;> simp

@[simp] theorem drillHold_clock (tag : Octet) : (drillHold tag t).clock = t.clock := by
  unfold drillHold; split <;> simp

@[simp] theorem drillEnd_clock (tag : Octet) : (drillEnd tag t).clock = t.clock := by
  unfold drillEnd; split <;> simp

@[simp] theorem alarmSilence_clock (tag : Octet) : (alarmSilence tag t).clock = t.clock := by
  unfold alarmSilence; split <;> simp

@[simp] theorem dispatchWrite_clock (tag a b : Octet) (e : DispatchEntry) : (dispatchWrite tag a b e t).clock = t.clock := by
  unfold dispatchWrite; split <;> simp

end

/-! ## The items of READ, that of the clock counters apart -/

section
variable {t u : State} {n : Nat} {clear : Bool} {l : List Octet}

theorem identItem_clock (h : identItem n clear t = some (l, u)) : u.clock = t.clock := by
  unfold identItem at h
  repeat' split at h
  all_goals cases h
  all_goals rfl

theorem paramItem_clock (h : paramItem n clear t = some (l, u)) : u.clock = t.clock := by
  unfold paramItem at h
  repeat' split at h
  all_goals cases h
  all_goals rfl

theorem scheduleItem_clock (h : scheduleItem n clear t = some (l, u)) : u.clock = t.clock := by
  unfold scheduleItem at h
  repeat' split at h
  all_goals cases h
  all_goals rfl

theorem entryItem_clock (h : entryItem n clear t = some (l, u)) : u.clock = t.clock := by
  unfold entryItem at h
  repeat' split at h
  all_goals cases h
  all_goals rfl

theorem holidaysItem_clock (h : holidaysItem n clear t = some (l, u)) : u.clock = t.clock := by
  unfold holidaysItem at h
  repeat' split at h
  all_goals cases h
  all_goals rfl

theorem patternItem_clock (h : patternItem n clear t = some (l, u)) : u.clock = t.clock := by
  unfold patternItem at h
  repeat' split at h
  all_goals cases h
  all_goals rfl

theorem generatorItem_clock (h : generatorItem n clear t = some (l, u)) : u.clock = t.clock := by
  unfold generatorItem at h
  repeat' split at h
  all_goals cases h
  all_goals rfl

theorem bellQueueItem_clock (h : bellQueueItem n clear t = some (l, u)) : u.clock = t.clock := by
  unfold bellQueueItem at h
  repeat' split at h
  all_goals cases h
  all_goals rfl

theorem trunkItem_clock (h : trunkItem n clear t = some (l, u)) : u.clock = t.clock := by
  unfold trunkItem at h
  repeat' split at h
  all_goals cases h
  all_goals rfl

theorem drillItem_clock (h : drillItem n clear t = some (l, u)) : u.clock = t.clock := by
  unfold drillItem at h
  repeat' split at h
  all_goals cases h
  all_goals rfl

theorem musterItem_clock (h : musterItem n clear t = some (l, u)) : u.clock = t.clock := by
  unfold musterItem at h
  repeat' split at h
  all_goals cases h
  all_goals rfl

theorem pageItem_clock (h : pageItem n clear t = some (l, u)) : u.clock = t.clock := by
  unfold pageItem at h
  generalize n / 8 = k at h
  match k, h with
  | 0, h => cases h; rfl
  | 1, h => cases h; rfl

theorem roomItem_clock (h : roomItem n clear t = some (l, u)) : u.clock = t.clock := by
  unfold roomItem at h
  cases clear
  all_goals
    repeat' split at h
    all_goals cases h
    all_goals rfl

theorem legItem_clock (h : legItem n clear t = some (l, u)) : u.clock = t.clock := by
  unfold legItem at h
  generalize n / 4 = k at h
  match k, clear, h with
  | 0, _, h => cases h; rfl
  | 1, true, h => cases h; rfl
  | 1, false, h => cases h; rfl
  | 2, true, h => cases h; rfl
  | 2, false, h => cases h; rfl
  | 3, true, h => cases h; rfl
  | 3, false, h => cases h; rfl

theorem orderClips_clock (z : Fin 16) : (t.orderClips z).clock = t.clock := by
  obtain ⟨-, h⟩ | ⟨-, h⟩ | ⟨-, h⟩ := orderClips_cases z t <;> simp [h]

theorem zoneItem_clock (h : zoneItem n clear t = some (l, u)) : u.clock = t.clock := by
  unfold zoneItem at h
  generalize n / 16 = k at h
  match k, clear, h with
  | 0, _, h => cases h; rfl
  | 1, _, h => cases h; rfl
  | 2, true, h => cases h; exact orderClips_clock _
  | 2, false, h => cases h; exact orderClips_clock _
  | k + 3, clear, h =>
    change (if n = 48 then some (_, if clear then _ else t) else none) = some (l, u) at h
    cases clear <;> split at h <;> cases h <;> rfl

theorem inputsItem_clock (h : inputsItem n clear t = some (l, u)) : u.clock = t.clock := by
  unfold inputsItem at h
  split at h <;> cases h
  exact foldl_clock _ (by intros; rfl) _ t

/-- READ CLOCK leaves the clock, or clears its four counters. -/
theorem clockItem_clock (h : clockItem n clear t = some (l, u)) :
    u.clock = t.clock ∨ u.clock = { t.clock with sets := 0, steps := 0, slews := 0, holdovers := 0 } := by
  unfold clockItem at h
  split at h
  · cases h; exact .inl rfl
  · cases h; exact .inl rfl
  · cases clear <;> cases h
    · exact .inl rfl
    · exact .inr rfl
  · cases h

end

/-! ## Every command -/

section
variable {P : Clock → Prop} {s : State}

theorem onCommand_fixes {c : Instr} {act : State → State} (h : ∀ t, (act t).clock = t.clock) (hs : P s.clock) :
    P (s.onCommand c act).clock := onCommand_keeps (fun t ht => by rwa [h]) hs

theorem onCell_fixes {c : Instr} {act : State → State} (h : ∀ t, (act t).clock = t.clock) (hs : P s.clock) :
    P (s.onCell c act).clock := onCell_keeps (fun t ht => by rwa [h]) hs

theorem onEvent_fixes {c : Instr} {act : State → State} (h : ∀ t, (act t).clock = t.clock) (hs : P s.clock) :
    P (s.onEvent c act).clock := onEvent_keeps (fun t ht => by rwa [h]) hs

theorem readGroup_fixes {c : Instr} {tag : Octet} {item : Word16} {clear : Bool} {group : Nat → Bool → State → ReadItem}
    (h : ∀ {t u n clear l}, group n clear t = some (l, u) → u.clock = t.clock) (hs : P s.clock) :
    P (s.onCommand c (readGroup tag group item clear)).clock :=
  onCommand_fixes (fun t => readGroup_clock t (fun _ _ _ _ => h) tag item clear) hs

variable (h : ClockKept P)
include h

theorem readClock_keeps (tag : Octet) (item : Word16) (clear : Bool) (hs : P s.clock) :
    P (readGroup tag clockItem item clear s).clock := by
  unfold readGroup answerRead
  split
  · next hitem =>
    rw [offerParts_clock]
    obtain hu | hu := clockItem_clock hitem <;> rw [hu]
    · exact hs
    · exact h.clear _ hs
  · simpa using hs

theorem configure_keeps (tag : Octet) (n : Word16) (v : Word32) (op : Octet) (hs : P s.clock) :
    P (configure tag n v op s).clock := by
  unfold configure; dsimp only
  repeat' split
  case h_12 => exact writeRanged_keeps h tag _ v hs
  all_goals simpa [answerConfigure, configureThreshold_clock, configureEdges_clock] using hs

end

end Sys2Proof.Machine
end

section
/-!
PROOFS. Every step keeps what the moves of the clock keep: the commands one by one, the events, the frame, the line reset.
-/
namespace Sys2Proof.Machine

variable {P : Clock → Prop} {s : State} (h : ClockKept P)
include h

theorem performCommand_keeps (c : Instr) (hs : P s.clock) : P (performCommand c s).clock := by
  cases c with
  | time tag tref dref wref force cap => exact onCommand_keeps (fun t ht => time_keeps h tag tref dref wref force cap ht) hs
  | configure tag n v op => exact onCommand_keeps (fun t ht => configure_keeps h tag n v op ht) hs
  | configureStepThreshold tag v => exact onCommand_keeps (fun t ht => writeRanged_keeps h tag 1 v ht) hs
  | configureSlewRate tag v => exact onCommand_keeps (fun t ht => writeRanged_keeps h tag 2 v ht) hs
  | configureDrillFloor tag v => exact onCommand_keeps (fun t ht => writeRanged_keeps h tag 14 v ht) hs
  | readClock tag item clear => exact onCommand_keeps (fun t ht => readClock_keeps h tag item clear ht) hs
  | readIdent => exact readGroup_fixes identItem_clock hs
  | readSchedule => exact readGroup_fixes scheduleItem_clock hs
  | readEntry => exact readGroup_fixes entryItem_clock hs
  | readHolidays => exact readGroup_fixes holidaysItem_clock hs
  | readPattern => exact readGroup_fixes patternItem_clock hs
  | readGenerator => exact readGroup_fixes generatorItem_clock hs
  | readBellQueue => exact readGroup_fixes bellQueueItem_clock hs
  | readZone => exact readGroup_fixes zoneItem_clock hs
  | readPage => exact readGroup_fixes pageItem_clock hs
  | readRoom => exact readGroup_fixes roomItem_clock hs
  | readLeg => exact readGroup_fixes legItem_clock hs
  | readTrunk => exact readGroup_fixes trunkItem_clock hs
  | readDrill => exact readGroup_fixes drillItem_clock hs
  | readMuster => exact readGroup_fixes musterItem_clock hs
  | readInputs => exact readGroup_fixes inputsItem_clock hs
  | readParam => exact readGroup_fixes paramItem_clock hs
  | configureDetectorThreshold | configureEdgeEnables | readUnknownGroup | reset | dispatchWrite =>
    simp only [performCommand, State.after, execConfigureDetectorThreshold, execConfigureEdgeEnables,
      execReadUnknownGroup, execReset, execDispatchWrite]
    exact onCommand_fixes (fun t => by simp [answerRead]) hs
  | pageOpen | pageChangeWrite | pageChangeSet | pageChangeClear | pageChangeUnknownOperation | pageClose | bellNow =>
    simp only [performCommand, State.after, execPageOpen, execPageChangeWrite, execPageChangeSet,
      execPageChangeClear, execPageChangeUnknownOperation, execPageClose, execBellNow]
    exact onCommand_fixes (fun t => by simp) hs
  | patternWriteDefine | patternWriteSteps | patternWriteStore | patternWriteEmpty | patternWriteUnknownOperation =>
    simp only [performCommand, State.after, execPatternWriteDefine, execPatternWriteSteps, execPatternWriteStore,
      execPatternWriteEmpty, execPatternWriteUnknownOperation]
    exact onCommand_fixes (fun t => by simp) hs
  | scheduleWriteEntry | scheduleWriteEmpty | scheduleWriteUnknownOperation | scheduleCommit =>
    simp only [performCommand, State.after, execScheduleWriteEntry, execScheduleWriteEmpty,
      execScheduleWriteUnknownOperation, execScheduleCommit]
    exact onCommand_fixes (fun t => by simp [answerScheduleWrite]) hs
  | holidayWriteAdd | holidayWriteRemove | holidayWriteClear | holidayWriteUnknownOperation =>
    simp only [performCommand, State.after, execHolidayWriteAdd, execHolidayWriteRemove, execHolidayWriteClear,
      execHolidayWriteUnknownOperation]
    exact onCommand_fixes (fun t => by simp [answerHoliday]) hs
  | zoneAudio | zoneMode | supervise | rosterWriteWrite | rosterWriteSet | rosterWriteClear
  | rosterWriteUnknownOperation =>
    simp only [performCommand, State.after, execZoneAudio, execZoneMode, execSupervise, execRosterWriteWrite,
      execRosterWriteSet, execRosterWriteClear, execRosterWriteUnknownOperation]
    exact onCommand_fixes (fun t => by simp) hs
  | drillStart | drillHold | drillEnd | alarmSilence =>
    simp only [performCommand, State.after, execDrillStart, execDrillHold, execDrillEnd, execAlarmSilence]
    exact onCommand_fixes (fun t => by simp) hs
  | _ => exact hs

/-! ## Cells -/

theorem dispatchTrunk_keeps (c : Cell) (cap : Capture) (hs : P s.clock) : P (dispatchTrunk c cap s).clock := by
  unfold dispatchTrunk
  split
  · simpa using hs
  · split
    · split
      · exact performCommand_keeps h _ hs
      · split <;> simpa using hs
    · repeat' split
      all_goals simpa using hs

omit h in
theorem dispatchLeg_keeps (leg : Fin 4) (c : Cell) (hs : P s.clock) : P (dispatchLeg leg c s).clock := by
  have hprotocol : P (performProtocol leg c s).clock := by
    unfold performProtocol
    split
    · simp only [State.after, execClockReply]; exact onCell_fixes (fun t => by simp) hs
    · simp only [State.after, execRoomClear]; exact onCell_fixes (fun t => by simp) hs
    · simp only [State.after, execAmpReady]; exact onCell_fixes (fun t => by simp) hs
    · simp only [State.after, execLineResult]; exact onCell_fixes (fun t => by simp) hs
    · simpa using hs
  have hpass : P (passFromLeg leg c s).clock := by
    unfold passFromLeg; dsimp only
    repeat' split
    all_goals simpa using hs
  unfold dispatchLeg
  repeat' split
  case isFalse.isFalse.isTrue => exact hprotocol
  case isFalse.isFalse.isFalse.isFalse => exact hpass
  all_goals simpa using hs

/-! ## Every row but the frame and the line reset -/

theorem perform_keeps (c : Instr) (hs : P s.clock) : P (perform c s).clock := by
  cases c with
  | lineReset | frame => exact hs
  | clockTick =>
    exact onEvent_keeps (act := asEvent clockTick) (fun t ht => by simpa [clockTick_clock] using h.tick _ ht) hs
  | slewTick =>
    simp only [perform, State.after, execSlewTick]
    split
    · exact onEvent_keeps (fun t ht => by simpa [clockTick_clock] using h.tick _ ht) (by simpa using hs)
    · simpa using hs
  | holdoverExpiry =>
    simp only [perform, State.after, execHoldoverExpiry]
    refine onEvent_keeps (fun t ht => ?_) hs
    split
    · rw [enterHoldover_clock]; exact h.holdover _ _ ht
    · exact ht
  | dispatchTrunkCell c cap => exact onCell_keeps (fun t ht => dispatchTrunk_keeps h c cap ht) hs
  | dispatchLegCell leg c => exact onCell_keeps (fun t ht => dispatchLeg_keeps leg c ht) hs
  | millisecondTick | generatorStepEnd | pageMaxTime | pageSilence | inputEdge | prealertExpiry
  | evacuationToneLimit =>
    simp only [perform, State.after, execMillisecondTick, execGeneratorStepEnd, execPageMaxTime, execPageSilence,
      execInputEdge, execPrealertExpiry, execEvacuationToneLimit]
    exact onEvent_fixes (fun t => by simp [rampZones, apply_ite State.clock]) hs
  | ampRest | ampWakeLimit =>
    simp only [perform, State.after, execAmpRest, execAmpWakeLimit]
    exact onEvent_fixes (fun t => foldl_clock _ (fun u z => by split <;> simp) _ t) hs
  | lineTestStart =>
    simp only [perform, State.after, execLineTestStart]
    refine onEvent_fixes (fun t => ?_) hs
    rw [asEvent_clock]
    repeat' split
    all_goals simp
  | testTimeout | pollPoint | clockStateBroadcast | drillStateOwedOffer =>
    simp only [perform, State.after, execTestTimeout, execPollPoint, execClockStateBroadcast, execDrillStateOwedOffer]
    exact onEvent_fixes (fun t => by simp [apply_ite State.clock]) hs
  | replyTimeout => exact onEvent_fixes (fun t => foldl_clock _ (fun u l => replyTimeout_clock u l) _ t) hs
  | trunkSyncLoss | trunkSyncGain | legDown | legUp | cellDeparture =>
    simp only [perform, State.after, execTrunkSyncLoss, execTrunkSyncGain, execLegDown, execLegUp, execCellDeparture]
    exact onEvent_fixes (fun t => by simp) hs
  | clockReply | roomClear | ampReady | lineResult =>
    simp only [perform, State.after, execClockReply, execRoomClear, execAmpReady, execLineResult]
    exact onCell_fixes (fun t => by simp) hs
  | _ => simp only [perform]; exact performCommand_keeps h _ hs

/-! ## The frame -/

theorem completeFrame_keeps (hs : P s.clock) : P (completeFrame s).clock := by
  unfold completeFrame; dsimp only
  rw [countClips_clock, State.setDue_clock]
  refine List.foldlRecOn (motive := fun t : State => P t.clock) _ _ (by simpa using hs) fun (t : State) ht c _ => ?_
  split
  · exact perform_keeps h c ht
  · exact ht

theorem advanceFramePhase_keeps (hs : P s.clock) : P (advanceFramePhase s).clock := by
  unfold advanceFramePhase
  split
  · exact hs
  · next hset =>
    refine h.phase _ _ hs ?_
    simp only [State.ticksClock, decide_eq_true hset, Bool.true_and]
    grind

/-! ## Every step -/

omit h in
/-- A row that is no frame and no line reset answers as it is performed when it is due. -/
theorem exec_eq_perform {c : Instr} (hf : ∀ x, c ≠ .frame x) (hr : ∀ x, c ≠ .lineReset x) (s : State) :
    exec c s = .next (perform c s) := by
  cases c with
  | frame x => exact absurd rfl (hf x)
  | lineReset x => exact absurd rfl (hr x)
  | _ => rfl

theorem exec_keeps (c : Instr) (hs : P s.clock) {t : State} (ht : exec c s = .next t) : P t.clock := by
  by_cases hf : ∃ x, c = .frame x
  · obtain ⟨x, rfl⟩ := hf
    obtain rfl : beginFrame x (completeFrame s) = t := Host.Outcome.next.inj ht
    rw [beginFrame_clock]
    exact advanceFramePhase_keeps h (completeFrame_keeps h hs)
  by_cases hr : ∃ x, c = .lineReset x
  · obtain ⟨x, rfl⟩ := hr
    obtain rfl := Host.Outcome.next.inj ht
    exact h.reset
  rw [exec_eq_perform (fun x hx => hf ⟨x, hx⟩) fun x hx => hr ⟨x, hx⟩] at ht
  obtain rfl := Host.Outcome.next.inj ht
  exact perform_keeps h c hs

/-- A property that the moves of the clock keep is kept by every step. -/
theorem step_keeps {t : State} (hs : P s.clock) (ht : step s = .next t) : P t.clock := by
  unfold step at ht
  split at ht
  · obtain rfl := Host.Outcome.next.inj ht; exact hs
  · exact exec_keeps h _ (by simpa using hs) ht

end Sys2Proof.Machine
end

section
/-!
PROOFS. The correction remaining and the step threshold (R12).
-/
namespace Sys2Proof.Machine

/-- The correction stays strictly smaller in magnitude than the step threshold. -/
def Clock.correctionHeld (c : Clock) : Prop := c.correction.natAbs < c.stepThreshold

theorem Clock.nextCorrection_natAbs_le (c : Clock) : c.nextCorrection.natAbs ≤ c.correction.natAbs := by
  unfold Clock.nextCorrection
  repeat' split
  all_goals omega

theorem Clock.tick_correction (c : Clock) : c.tick.correction = c.nextCorrection := by
  unfold Clock.tick; dsimp only; split <;> rfl

theorem Clock.tick_stepThreshold (c : Clock) : c.tick.stepThreshold = c.stepThreshold := by
  unfold Clock.tick; dsimp only; split <;> rfl

theorem clampCorrection_natAbs_lt {n : Nat} (hn : 0 < n) (c : Int) : (clampCorrection n c).natAbs < n := by
  unfold clampCorrection
  repeat' split
  all_goals omega

/-- Every move of the clock keeps C below S in magnitude. -/
theorem correctionHeld_kept : ClockKept Clock.correctionHeld where
  reset := by unfold Clock.correctionHeld; decide
  phase _ _ hc _ := hc
  tick c hc := by
    unfold Clock.correctionHeld at hc ⊢
    rw [c.tick_correction, c.tick_stepThreshold]
    exact Nat.lt_of_le_of_lt c.nextCorrection_natAbs_le hc
  holdover _ _ hc := hc
  accept _ _ hc := hc
  set _ _ _ _ _ hc _ _ := Nat.zero_lt_of_lt hc
  step _ _ hc := Nat.zero_lt_of_lt hc
  slew _ _ _ _ he := he
  threshold c n _ hn _ := clampCorrection_natAbs_lt (by omega) c.correction
  rate _ _ hc _ _ := hc
  limit _ _ hc _ _ := hc
  trim _ _ hc _ _ := hc
  clear _ hc := hc

/-- A TIME leaves the correction, sets it to 0, or sets it to its error below the threshold. -/
theorem time_correction (tag : Octet) (tref : Word32) (dref : Day) (wref : Octet) (force : Bool) (cap : Capture) (s : State) :
    let e := timeError tref.toNat dref cap
    let c := (time tag tref dref wref force cap s).clock.correction
    c = s.clock.correction ∨ c = 0 ∨ (c = e ∧ e.natAbs < s.clock.stepThreshold) := by
  dsimp only
  obtain hsame | ⟨u, st, hu, hcase⟩ := time_cases tag tref dref wref force cap s
  · rw [hsame]; exact .inl rfl
  · rw [hu]
    obtain rfl | rfl | ⟨he, rfl⟩ := hcase
    · rw [setClock_clock]; exact .inr (.inl rfl)
    · exact .inr (.inl rfl)
    · exact .inr (.inr ⟨rfl, he⟩)

theorem configureStepThreshold_clock {s t : State} {tag : Octet} {value : Word32}
    (h : exec (.configureStepThreshold tag value) s = .next t) :
    t.clock = s.clock.setStepThreshold (clampInt 100 60000 value.toInt).toNat := by
  cases h
  rw [onCommand_eq, writeRanged_clock _ (n := 1) rfl]
  simp [State.setQuantity]

/-- A correction below the new threshold stands. -/
theorem clampCorrection_of_lt {n : Nat} {c : Int} (h : c.natAbs < n) : clampCorrection n c = c := if_pos h

/-- A correction not below the new threshold keeps its sign, at the magnitude n − 1. -/
theorem clampCorrection_of_ge {n : Nat} {c : Int} (hn : 2 ≤ n) (h : n ≤ c.natAbs) :
    (clampCorrection n c).natAbs = n - 1 ∧ (clampCorrection n c).sign = c.sign := by
  unfold clampCorrection
  rw [if_neg (by omega)]
  split
  · next hneg => exact ⟨by omega, by rw [Int.sign_eq_neg_one_of_neg hneg, Int.sign_eq_neg_one_of_neg (by omega)]⟩
  · exact ⟨by omega, by rw [Int.sign_eq_one_of_pos (by omega), Int.sign_eq_one_of_pos (by omega)]⟩

/-- Settles O18: the bound is a property that the moves of the clock keep; TIME by its cases; the write by the clamp of C. -/
theorem stepThresholdHoldsCorrection : Obligations.StepThresholdHoldsCorrection := by
  refine ⟨fun s t hs ht => step_keeps correctionHeld_kept hs ht, fun tag tref dref wref force cap s => ?_,
    fun tag value s => ?_⟩
  · refine ⟨_, rfl, ?_⟩
    have hclock := begun_clock s (.time tag tref dref wref force cap)
    have h := time_correction tag tref dref wref force cap (s.begun (.time tag tref dref wref force cap))
    rw [hclock] at h
    exact h
  · obtain ⟨t, ht⟩ : ∃ t, exec (.configureStepThreshold tag value) s = .next t := ⟨_, rfl⟩
    refine ⟨t, ht, ?_⟩
    have hclock := configureStepThreshold_clock ht
    unfold clampInt at hclock
    dsimp only
    generalize hn : (max 100 (min 60000 value.toInt)).toNat = n at hclock ⊢
    have hn100 : 100 ≤ n := by omega
    rw [hclock]
    refine ⟨rfl, fun h => clampCorrection_of_lt h, fun h => clampCorrection_of_ge (by omega) h, ?_, ?_⟩
    · intro hc
      constructor
      all_goals
        rintro rfl
        obtain rfl := hn
        simp only [Clock.setStepThreshold, hc]
        decide
    · rintro hc rfl
      obtain rfl := hn
      simp only [Clock.setStepThreshold, hc]
      decide

end Sys2Proof.Machine
end

section
/-!
PROOFS. The events of a frame that follows a complete one: what falls due by the frame itself, by the counts of the ports and
by the cells received.
-/
namespace Sys2Proof.Machine

/-! ## A frame after a complete one -/

/-- With no event left, completing a frame counts its clip counts and nothing else. -/
theorem completeFrame_of_due_nil {s : State} (h : s.due = []) : completeFrame s = countClips s := by
  have hsettle : s.settle = s := settle_of_settled (by simp [State.Settled, State.tickWaits, h])
  have hdue : s.setDue [] = s := by rw [← h]; rfl
  unfold completeFrame; dsimp only
  rw [hsettle, h, List.foldl_nil, hdue]

/-- A frame after a complete one is begun once the clips of that one are counted. -/
theorem exec_frame_of_due_nil (x : FrameInput) {s : State} (h : s.due = []) :
    exec (.frame x) s = .next (beginFrame x (countClips s)) := by
  rw [← completeFrame_of_due_nil h]; rfl

/-! ## The events of received cells -/

/-- The rows that a received cell can be: all but the ticks, the departures and the sync changes of a frame. -/
def cellRow : Instr → Bool
  | .millisecondTick | .clockTick | .cellDeparture _ | .trunkSyncLoss | .trunkSyncGain | .legDown _ | .legUp _ => false
  | _ => true

theorem decodeCommand_cellRow {c : Cell} {cap : Capture} {i : Instr} (h : decodeCommand c cap = some i) :
    cellRow i = true := by
  have hread : cellRow (decodeRead c) = true := by unfold decodeRead; dsimp only; split <;> rfl
  have hconfigure : cellRow (decodeConfigure c) = true := by unfold decodeConfigure; dsimp only; split <;> rfl
  have hpage : cellRow (decodePageChange c) = true := by unfold decodePageChange; split <;> rfl
  have hpattern : cellRow (decodePatternWrite c) = true := by unfold decodePatternWrite; split <;> rfl
  have hschedule : cellRow (decodeScheduleWrite c) = true := by unfold decodeScheduleWrite; split <;> rfl
  have hholiday : cellRow (decodeHolidayWrite c) = true := by unfold decodeHolidayWrite; split <;> rfl
  have hroster : cellRow (decodeRosterWrite c) = true := by unfold decodeRosterWrite; split <;> rfl
  unfold decodeCommand at h
  split at h <;> cases h
  any_goals assumption
  all_goals rfl

theorem decodeTrunkCell_cellRow (c : Cell) (cap : Capture) : cellRow (decodeTrunkCell c cap) = true := by
  unfold decodeTrunkCell
  split
  · cases h : decodeCommand c cap with
    | none => rfl
    | some i => exact decodeCommand_cellRow h
  · rfl

theorem decodeLegCell_cellRow (leg : Fin 4) (c : Cell) : cellRow (decodeLegCell leg c) = true := by
  unfold decodeLegCell
  split
  · split <;> rfl
  · rfl

theorem cellRow_of_mem_cellEvent {p : Fin 5} {r : Option (Cell × Capture)} {e : Instr} (h : e ∈ cellEvent p r) :
    cellRow e = true := by
  unfold cellEvent at h
  split at h
  · rw [List.mem_singleton.1 h]; exact decodeLegCell_cellRow _ _
  · rw [List.mem_singleton.1 h]; exact decodeTrunkCell_cellRow _ _
  · cases h

/-! ## The events of the frame itself and of its ports -/

section
variable (x : FrameInput) (s : State)

/-- An event that no cell brings is due where the frame brings it or the counts of a port have reached it. -/
theorem mem_beginFrame_due {e : Instr} (he : cellRow e = false) :
    e ∈ (beginFrame x s).due ↔ e ∈ frameEvents s ∨ ∃ p, e ∈ syncEvent p (beginFrame x s).ports[p] := by
  have hcell (p : Fin 5) (r : Option (Cell × Capture)) : e ∉ cellEvent p r := fun h => by
    rw [cellRow_of_mem_cellEvent h] at he; cases he
  simp only [beginFrame_due, beginFrame_port, portEvents, List.mem_append, List.mem_flatMap, List.mem_finRange,
    true_and, hcell, or_false]

theorem mem_frameEvents (e : Instr) : e ∈ frameEvents s ↔
    (s.tickPhase = 7 ∧ e = .millisecondTick)
    ∨ ((s.clock.state ≠ .unset ∧ s.clock.framePhase = 7) ∧ e = .clockTick)
    ∨ ∃ p : Fin 5, s.ports[p].tx = none ∧ .cellDeparture p = e := by
  simp only [frameEvents, departures, State.ticksMs, State.ticksClock, List.mem_append, List.mem_ite_nil_right,
    List.mem_singleton, List.mem_map, List.mem_filter, List.mem_finRange, true_and, beq_iff_eq, Bool.and_eq_true,
    decide_eq_true_eq, Option.isNone_iff_eq_none, or_assoc]

/-- The loss of sync of a port, and the gain. -/
def lossEvent (p : Fin 5) : Instr := ((portLeg p).map Instr.legDown).getD .trunkSyncLoss

def gainEvent (p : Fin 5) : Instr := ((portLeg p).map Instr.legUp).getD .trunkSyncGain

/-- The sync events of a port: the fourth bad frame in sync, the second good one out of it. -/
theorem mem_syncEvent (p : Fin 5) (y : Port) (e : Instr) : e ∈ syncEvent p y ↔
    (y.up = true ∧ 4 ≤ y.bad ∧ e = lossEvent p) ∨ (y.up = false ∧ 2 ≤ y.good ∧ e = gainEvent p) := by
  unfold syncEvent lossEvent gainEvent
  cases y.up
  · by_cases h : 2 ≤ y.good <;> cases portLeg p <;> simp [h]
  · by_cases h : 4 ≤ y.bad <;> cases portLeg p <;> simp [h]

theorem port_cases (p : Fin 5) : p = trunkPort ∨ ∃ l, p = legPort l := by
  revert p; decide

@[simp] theorem lossEvent_trunkPort : lossEvent trunkPort = .trunkSyncLoss := rfl
@[simp] theorem gainEvent_trunkPort : gainEvent trunkPort = .trunkSyncGain := rfl
@[simp] theorem lossEvent_legPort (l : Fin 4) : lossEvent (legPort l) = .legDown l := by simp [lossEvent]
@[simp] theorem gainEvent_legPort (l : Fin 4) : gainEvent (legPort l) = .legUp l := by simp [gainEvent]

/-- The sync events of all ports: those of the trunk, and those of each leg. -/
theorem exists_mem_syncEvent (y : Fin 5 → Port) (e : Instr) : (∃ p, e ∈ syncEvent p (y p)) ↔
    e ∈ syncEvent trunkPort (y trunkPort) ∨ ∃ l, e ∈ syncEvent (legPort l) (y (legPort l)) := by
  constructor
  · rintro ⟨p, hp⟩
    obtain rfl | ⟨l, rfl⟩ := port_cases p
    · exact .inl hp
    · exact .inr ⟨l, hp⟩
  · rintro (h | ⟨l, h⟩)
    · exact ⟨_, h⟩
    · exact ⟨_, h⟩

theorem beginFrame_contains {e : Instr} (he : cellRow e = false) : (beginFrame x s).due.contains e =
    decide (e ∈ frameEvents s ∨ e ∈ syncEvent trunkPort (beginFrame x s).ports[trunkPort]
      ∨ ∃ l, e ∈ syncEvent (legPort l) (beginFrame x s).ports[legPort l]) := by
  rw [List.contains_eq_mem, decide_eq_decide, mem_beginFrame_due x s he,
    exists_mem_syncEvent fun p => (beginFrame x s).ports[p]]

/-- The ticks fall due by the phases alone. -/
theorem beginFrame_millisecondTick :
    (beginFrame x s).due.contains .millisecondTick = decide (s.tickPhase = 7) := by
  rw [beginFrame_contains x s rfl]
  simp [mem_frameEvents, mem_syncEvent]

theorem beginFrame_clockTick : (beginFrame x s).due.contains .clockTick
    = decide (s.clock.state ≠ .unset ∧ s.clock.framePhase = 7) := by
  rw [beginFrame_contains x s rfl]
  simp [mem_frameEvents, mem_syncEvent]

/-- A departure falls due for each idle port. -/
theorem beginFrame_cellDeparture (p : Fin 5) :
    (beginFrame x s).due.contains (.cellDeparture p) = s.ports[p].tx.isNone := by
  rw [beginFrame_contains x s rfl, Bool.eq_iff_iff]
  simp [mem_frameEvents, mem_syncEvent]

end

end Sys2Proof.Machine
end

section
/-!
PROOFS. What a frame that follows a complete one begins with: links, contacts, phases, ticks and departures.
-/
namespace Sys2Proof.Machine

/-! ## The clip counts of the frame before -/

/-- A state without clip counters and the clip counts due. -/
def State.offClips (s : State) : State := { s with zones := Vector.replicate 16 Zone.reset, clipDue := 0 }

/-- The clip counts of a frame leave all but the zones as it is. -/
theorem countClips_offClips (s : State) : (countClips s).offClips = s.offClips := by
  simp [countClips, State.offClips, State.setZones, State.setClipDue]

theorem countClips_fixes {β : Type} (part : State → β) (h : ∀ t, part t.offClips = part t) (s : State) :
    part (countClips s) = part s := by
  rw [← h, countClips_offClips, h]

/-! ## Ports -/

/-- What arrives changes of a port only its assembler and the two counters of reception. -/
theorem Port.receive_eq (p : Fin 5) (cap : Capture) (a : Arrival LegFrame) (x : Port) :
    (x.receive p cap a).1 = { x with
      assembler := (x.receive p cap a).1.assembler
      received := (x.receive p cap a).1.received
      assemblyErrors := (x.receive p cap a).1.assemblyErrors } := by
  unfold Port.receive Port.assemble Port.discard; dsimp only
  repeat' split
  all_goals rfl

/-- The counts change of a port only the counts. -/
theorem Port.count_eq (p : Fin 5) (a : Arrival LegFrame) (x : Port) :
    Port.count p a x = { x with
      bad := (Port.count p a x).bad, good := (Port.count p a x).good, badFrames := (Port.count p a x).badFrames } := by
  unfold Port.count; dsimp only
  repeat' split
  all_goals rfl

section
variable (input : FrameInput) (cap : Capture) (p : Fin 5) (x : Port)

@[simp] theorem Port.taken_up : (x.taken input cap p).up = x.up := by
  rw [Port.taken, Port.count_eq, Port.receive_eq]

@[simp] theorem Port.taken_queue : (x.taken input cap p).queue = x.queue := by
  rw [Port.taken, Port.count_eq, Port.receive_eq]

@[simp] theorem Port.taken_tx : (x.taken input cap p).tx = x.tx := by
  rw [Port.taken, Port.count_eq, Port.receive_eq]

end

/-! ## The frames sent -/

section
variable (s : State) (p : Fin 5)

theorem nextFrame_samples : (nextFrame s p).samples = slotsOf s p := by
  unfold nextFrame; split <;> rfl

theorem sendPattern_toNat : (sendPattern p).toNat = if p = 4 then 0x29C0 else 0x4E50 := by
  revert p; decide

theorem pieceControl_toNat (k : Nat) : (pieceControl p k).toNat = (sendPattern p).toNat + if k = 0 then 3 else 1 := by
  unfold pieceControl
  split <;> revert p <;> decide

/-- Every frame carries the sync pattern of its direction (R155). -/
theorem nextFrame_pattern : (nextFrame s p).control.toNat / 16 = if p = 4 then 0x29C else 0x4E5 := by
  unfold nextFrame
  split
  · rw [OutFrame.carry, pieceControl_toNat, sendPattern_toNat]; split <;> split <;> rfl
  · rw [emptyFrame, sendPattern_toNat]; split <;> rfl

/-- A port whose transmitter is idle sends no piece. -/
theorem nextFrame_idle (h : s.ports[p].tx = none) :
    (nextFrame s p).control.toNat % 16 = 0 ∧ (nextFrame s p).fragment = Vector.replicate 4 0 := by
  unfold nextFrame
  rw [h]
  refine ⟨?_, rfl⟩
  rw [emptyFrame, sendPattern_toNat]; split <;> rfl

/-- A port that has sent its first piece sends the next one. -/
theorem nextFrame_piece {c : Cell} {n : Nat} (h : s.ports[p].tx = some ⟨c, n⟩) (hn : 1 ≤ n) :
    (nextFrame s p).control.toNat % 16 = 1
      ∧ ∀ i : Fin 4, (nextFrame s p).fragment[i] = c.octets.getD (4 * n + i.val) 0 := by
  unfold nextFrame
  rw [h]; dsimp only
  refine ⟨?_, fun i => ?_⟩
  · rw [OutFrame.carry, pieceControl_toNat, sendPattern_toNat, if_neg (show ¬n = 0 by omega)]; split <;> rfl
  · simp [OutFrame.carry, pieceOf]

theorem Port.sendPiece_tx {x : Port} {c : Cell} {n : Nat} (h : x.tx = some ⟨c, n⟩) :
    x.sendPiece.tx = if n < 3 then some ⟨c, n + 1⟩ else none := by
  simp [Port.sendPiece, h, Nat.lt_sub_iff_add_lt.symm]

end

/-! ## The phases -/

theorem advanceFramePhase_clock (s : State) : (advanceFramePhase s).clock =
    if s.clock.state = .unset then s.clock
    else { s.clock with framePhase := if s.clock.framePhase = 7 then 7 else s.clock.framePhase + 1 } := by
  unfold advanceFramePhase
  split
  · rfl
  · next h => simp [State.ticksClock, h]

theorem frameElapsed_eq (s : State) : s.frameElapsed = if s.tickPhase = 7 then s.elapsed + 1 else s.elapsed := by
  simp [State.frameElapsed, State.ticksMs]

theorem Input.sample_eq (now : Word32) (raw : Bool) (i : Input) :
    i.sample now raw = { i with raw, changeStamp := if i.raw = raw then i.changeStamp else now } := by
  unfold Input.sample
  split
  · next h => subst h; rfl
  · rfl

/-! ## The frame, part by part -/

section
variable (x : FrameInput) (s : State)

/-- A port's link in a frame: queue and sync state stand, the sync pattern and the next piece go out. -/
theorem beginFrame_link (p : Fin 5) :
    (beginFrame x s).ports[p].queue = s.ports[p].queue ∧ (beginFrame x s).ports[p].up = s.ports[p].up
    ∧ (beginFrame x s).sending[p].control.toNat / 16 = (if p = 4 then 0x29C else 0x4E5)
    ∧ (s.ports[p].tx = none → (beginFrame x s).sending[p].control.toNat % 16 = 0
        ∧ (beginFrame x s).sending[p].fragment = Vector.replicate 4 0)
    ∧ (∀ c n, s.ports[p].tx = some ⟨c, n⟩ → 1 ≤ n → (beginFrame x s).sending[p].control.toNat % 16 = 1
        ∧ (∀ i : Fin 4, (beginFrame x s).sending[p].fragment[i] = c.octets.getD (4 * n + i.val) 0)
        ∧ (beginFrame x s).ports[p].tx = if n < 3 then some ⟨c, n + 1⟩ else none) := by
  rw [beginFrame_port, beginFrame_sending, Port.taken_queue, Port.taken_up, Port.taken_tx]
  refine ⟨rfl, rfl, nextFrame_pattern s p, nextFrame_idle s p, fun c n htx hn => ?_⟩
  obtain ⟨hcontrol, hfragment⟩ := nextFrame_piece s p htx hn
  exact ⟨hcontrol, hfragment, Port.sendPiece_tx htx⟩

theorem beginFrame_framePhase :
    (beginFrame x s).clock = { s.clock with framePhase := (beginFrame x s).clock.framePhase }
    ∧ (s.clock.state = .unset → (beginFrame x s).clock = s.clock)
    ∧ (s.clock.state ≠ .unset → s.clock.framePhase < 7 →
        (beginFrame x s).clock.framePhase = s.clock.framePhase + 1) := by
  rw [beginFrame_clock, advanceFramePhase_clock]
  refine ⟨by split <;> rfl, fun h => if_pos h, fun h h7 => ?_⟩
  rw [if_neg h]
  exact if_neg (by omega)

end

theorem offFrame_zones {s t : State} (h : t.offFrame = s.offFrame) : t.zones = s.zones := by
  have e := congrArg State.zones h
  exact e

/-- Two states that agree but for what a frame and the clip counts before it touch are one once that is replaced. -/
theorem offFrame_stands {s t : State} (h : t.offFrame.offClips = s.offFrame.offClips) : { t with
    tickPhase := s.tickPhase, clock := s.clock, gens := s.gens, zones := s.zones, pages := s.pages
    detectors := s.detectors, slotSamples := s.slotSamples, inputs := s.inputs, ports := s.ports
    sending := s.sending, sent := s.sent, contest := s.contest, clipDue := s.clipDue, due := s.due } = s := by
  have e := congrArg (fun u : State => { u with
    tickPhase := s.tickPhase, clock := s.clock, gens := s.gens, zones := s.zones, pages := s.pages
    detectors := s.detectors, slotSamples := s.slotSamples, inputs := s.inputs, ports := s.ports
    sending := s.sending, sent := s.sent, contest := s.contest, clipDue := s.clipDue, due := s.due }) h
  exact e

/-- What a frame after a complete one leaves alone: all but its own parts, and the clip counts before it. -/
theorem beginFrame_countClips_stands (x : FrameInput) (s : State) :
    (beginFrame x (countClips s)).offFrame.offClips = s.offFrame.offClips := by
  have hcommute (t : State) : t.offFrame.offClips = t.offClips.offFrame := rfl
  rw [beginFrame_offFrame, hcommute, countClips_offClips, hcommute]

/-! ## The obligation -/

/-- Settles O27: each part of the frame by its stage. -/
theorem frameBegins : Obligations.FrameBegins := by
  intro x s hdue
  obtain ⟨u, hu⟩ : ∃ u, u = countClips s := ⟨_, rfl⟩
  have hfix {β : Type} (part : State → β) (h : ∀ t, part t.offClips = part t) : part u = part s :=
    hu ▸ countClips_fixes part h s
  have htick : u.tickPhase = s.tickPhase := hfix State.tickPhase fun _ => rfl
  have helapsed : u.elapsed = s.elapsed := hfix State.elapsed fun _ => rfl
  have hclock : u.clock = s.clock := hfix State.clock fun _ => rfl
  have hports : u.ports = s.ports := hfix State.ports fun _ => rfl
  have hsending : u.sending = s.sending := hfix State.sending fun _ => rfl
  have hsamples : u.slotSamples = s.slotSamples := hfix State.slotSamples fun _ => rfl
  have hinputs : u.inputs = s.inputs := hfix State.inputs fun _ => rfl
  have hpages : u.pages = s.pages := hfix State.pages fun _ => rfl
  have hgens : u.gens = s.gens := hfix State.gens fun _ => rfl
  have hanswer : exec (.frame x) s = .next (beginFrame x u) := hu ▸ exec_frame_of_due_nil x hdue
  obtain ⟨hphase, hunset, hadvance⟩ := beginFrame_framePhase x u
  have hclockTick := beginFrame_clockTick x u
  rw [hclock] at hphase hunset hadvance hclockTick
  refine ⟨beginFrame x u, hanswer, ?_, ?_, hphase, ?_, ?_, ?_, ?_, ?_, ?_, ?_, ?_, ?_, ?_, ?_⟩
  · intro h
    rw [beginFrame_tickPhase, htick, if_neg (by omega)]
  · rw [beginFrame_millisecondTick, htick]
  · intro h
    exact ⟨hunset h, by rw [hclockTick]; simp [h]⟩
  · intro h
    exact ⟨hadvance h, by rw [hclockTick]; simp [h]⟩
  · rw [beginFrame_sent, hsending]
  · intro p
    have h := beginFrame_link x u p
    rw [hports] at h
    exact ⟨by rw [beginFrame_cellDeparture, hports], h⟩
  · intro l
    rw [beginFrame_sending, nextFrame_samples, slotsOf, portLeg_legPort, hports, hsamples]
  · intro i
    rw [beginFrame_input, Input.sample_eq, frameElapsed_eq, hinputs, htick, helapsed]
  · intro p
    have h := beginFrame_page x u p
    rwa [hpages] at h
  · intro z
    rw [offFrame_zones (beginFrame_offFrame x u), hu, countClips_zone]
    split <;> rfl
  · intro g
    have h := beginFrame_gen x u g
    rwa [hgens] at h
  · rw [beginFrame_contest]; rfl
  · exact offFrame_stands (hu ▸ beginFrame_countClips_stands x s)

end Sys2Proof.Machine
end

section
/-!
PROOFS. Reception in a frame that follows a complete one: the counts of good and bad frames, the sync changes that fall due,
the pieces of cells and the rows that received cells are.
-/
namespace Sys2Proof.Machine

/-! ## What is found at a port -/

section
variable (x : FrameInput)

theorem arrivalAt_legPort (l : Fin 4) : arrivalAt x (legPort l) = x.legs[l] := by simp [arrivalAt]

theorem arrivalAt_trunkPort : arrivalAt x trunkPort = trunkArrival x.trunk := by simp [arrivalAt]

theorem trunkArrival_eq_arrived (a : Arrival TrunkFrame) (spaced : Bool) (f : LegFrame) :
    trunkArrival a = .arrived spaced f ↔
      ∃ g : TrunkFrame, a = .arrived spaced g ∧ g.control = f.control ∧ g.fragment = f.fragment := by
  cases a with
  | missing => simp [trunkArrival]
  | arrived b g =>
    cases f
    simp [trunkArrival, cellPart, and_assoc]

/-- A good frame is found at a port where one arrives that carries the pattern of its direction (R155). -/
theorem found_iff (p : Fin 5) (spaced : Bool) (f : LegFrame) :
    ((∃ l : Fin 4, p = legPort l ∧ x.legs[l] = .arrived spaced f ∧ f.control.toNat / 16 = 0x35A)
      ∨ (p = trunkPort ∧ f.control.toNat / 16 = 0x6D3
        ∧ ∃ g : TrunkFrame, x.trunk = .arrived spaced g ∧ g.control = f.control ∧ g.fragment = f.fragment))
    ↔ arrivalAt x p = .arrived spaced f ∧ goodControl p f.control = true := by
  obtain rfl | ⟨l, rfl⟩ := port_cases p
  · have hleg (l : Fin 4) : ¬ trunkPort = legPort l := fun h => legPort_ne_trunkPort l h.symm
    simp [hleg, arrivalAt_trunkPort, trunkArrival_eq_arrived, goodControl, receivePattern, and_comm]
  · have hinj (k : Fin 4) : legPort l = legPort k ↔ l = k := by simp [legPort, Fin.ext_iff]
    simp [legPort_ne_trunkPort, arrivalAt_legPort, goodControl, receivePattern, hinj]

theorem arrivedGood_iff (p : Fin 5) (a : Arrival LegFrame) :
    arrivedGood p a = true ↔ ∃ spaced f, a = .arrived spaced f ∧ goodControl p f.control = true := by
  cases a with
  | missing =>
    constructor
    · rintro ⟨⟩
    · rintro ⟨_, _, ⟨⟩, _⟩
  | arrived b f =>
    constructor
    · exact fun h => ⟨b, f, rfl, h⟩
    · rintro ⟨_, _, ⟨⟩, h⟩
      exact h

end

/-! ## The counts (R156, R158) -/

section
variable {p : Fin 5} {a : Arrival LegFrame} {y : Port}

theorem Port.count_of_up_good (hup : y.up = true) (h : arrivedGood p a = true) :
    Port.count p a y = { y with bad := 0 } := by simp [Port.count, hup, h]

theorem Port.count_of_up_bad (hup : y.up = true) (h : arrivedGood p a = false) :
    Port.count p a y = { y with bad := y.bad + 1, badFrames := bump y.badFrames } := by simp [Port.count, hup, h]

/-- Out of sync only the good count moves. -/
theorem Port.count_of_down (hup : y.up = false) :
    Port.count p a y = { y with good := (Port.count p a y).good } := by
  unfold Port.count; dsimp only
  rw [if_neg (by simp [hup])]
  split <;> rfl

theorem Port.count_good_of_missed (hup : y.up = false) (h : arrivedGood p a = false) :
    (Port.count p a y).good = 0 := by simp [Port.count, hup, h]

theorem Port.count_good_of_found {spaced : Bool} {f : LegFrame} (hup : y.up = false)
    (h : goodControl p f.control = true) :
    (Port.count p (.arrived spaced f) y).good = if spaced then y.good + 1 else 1 := by
  cases spaced <;> simp [Port.count, hup, arrivedGood, h]

end

/-! ## The assembler (R159) -/

section
variable {p : Fin 5} {cap : Capture} {a : Arrival LegFrame} {y : Port} {f : LegFrame}

theorem Port.discard_pieces (y : Port) : y.discard.assembler.pieces = [] := by
  unfold Port.discard
  split
  · next h => exact List.isEmpty_iff.1 h
  · rfl

theorem Port.receive_of_down (hup : y.up = false) : y.receive p cap a = (y, none) := by
  simp [Port.receive, hup]

theorem Port.receive_of_bad (hup : y.up = true) (h : arrivedGood p a = false) :
    y.receive p cap a = (y.discard, none) := by
  cases a with
  | missing => simp [Port.receive, hup]
  | arrived b f =>
    have hbad : goodControl p f.control = false := h
    simp [Port.receive, hup, hbad]

theorem Port.receive_of_good {spaced : Bool} (hup : y.up = true) (h : goodControl p f.control = true) :
    y.receive p cap (.arrived spaced f) = y.assemble cap (f.control.getLsbD 0) (f.control.getLsbD 1) f.fragment := by
  simp [Port.receive, hup, h]

/-- Cell-valid is bit 0 of the control word, cell-start bit 1 (R155). -/
theorem control_bits (w : Word16) :
    w.getLsbD 0 = decide (w.toNat % 2 = 1) ∧ w.getLsbD 1 = decide (w.toNat / 2 % 2 = 1) := by
  simp [BitVec.getLsbD, Nat.testBit_eq_decide_div_mod_eq]

/-- A first piece begins a cell, with the capture record of its frame. -/
theorem Port.receive_first {spaced : Bool} (hup : y.up = true) (h : goodControl p f.control = true)
    (hbits : f.control.toNat % 4 = 3) :
    (y.receive p cap (.arrived spaced f)).1.assembler = { pieces := [f.fragment], capture := cap } := by
  obtain ⟨h0, h1⟩ := control_bits f.control
  rw [Port.receive_of_good hup h, h0, h1, decide_eq_true (by omega), decide_eq_true (by omega)]
  simp [Port.assemble]

/-- The fourth piece completes the cell, which is received with the capture record of the first. -/
theorem Port.receive_fourth {spaced : Bool} {u v w : Fragment} (hup : y.up = true)
    (h : goodControl p f.control = true) (hbits : f.control.toNat % 4 = 1) (hpieces : y.assembler.pieces = [u, v, w]) :
    y.receive p cap (.arrived spaced f) =
      ({ y with assembler := { pieces := [], capture := Capture.none }, received := bump y.received },
        some (cellOfPieces [u, v, w, f.fragment], y.assembler.capture)) := by
  obtain ⟨h0, h1⟩ := control_bits f.control
  rw [Port.receive_of_good hup h, h0, h1, decide_eq_true (by omega), decide_eq_false (by omega)]
  simp [Port.assemble, hpieces]

end

/-! ## A port in a frame -/

section
variable (x : FrameInput) (cap : Capture) {p : Fin 5} {y : Port}

theorem Port.taken_assembler :
    (y.taken x cap p).assembler = (y.receive p cap (arrivalAt x p)).1.assembler
    ∧ (y.taken x cap p).received = (y.receive p cap (arrivalAt x p)).1.received := by
  rw [Port.taken, Port.count_eq]; exact ⟨rfl, rfl⟩

/-- What arrives leaves sync state and counts to the count of the frame. -/
theorem Port.receive_counts (a : Arrival LegFrame) :
    (y.receive p cap a).1.up = y.up ∧ (y.receive p cap a).1.bad = y.bad
      ∧ (y.receive p cap a).1.badFrames = y.badFrames := by
  rw [Port.receive_eq]; exact ⟨rfl, rfl, rfl⟩

/-- In sync a good frame sets the bad count to 0. -/
theorem Port.taken_of_up_good (hup : y.up = true) (h : arrivedGood p (arrivalAt x p) = true) :
    (y.taken x cap p).bad = 0 ∧ (y.taken x cap p).badFrames = y.badFrames := by
  obtain ⟨rup, -, rbadFrames⟩ := Port.receive_counts cap (p := p) (y := y) (arrivalAt x p)
  rw [Port.taken, Port.count_of_up_good (rup.trans hup) h]
  exact ⟨rfl, rbadFrames⟩

/-- In sync any other frame raises the bad count and the counter of bad frames, and discards the pieces of a cell. -/
theorem Port.taken_of_up_bad (hup : y.up = true) (h : arrivedGood p (arrivalAt x p) = false) :
    (y.taken x cap p).bad = y.bad + 1 ∧ (y.taken x cap p).badFrames = bump y.badFrames
      ∧ (y.taken x cap p).assembler.pieces = [] := by
  obtain ⟨rup, rbad, rbadFrames⟩ := Port.receive_counts cap (p := p) (y := y) (arrivalAt x p)
  have hpieces : (y.taken x cap p).assembler.pieces = [] := by
    rw [(Port.taken_assembler x cap).1, Port.receive_of_bad hup h]; exact y.discard_pieces
  refine ⟨?_, ?_, hpieces⟩ <;> rw [Port.taken, Port.count_of_up_bad (rup.trans hup) h]
  · exact congrArg (· + 1) rbad
  · exact congrArg bump rbadFrames

/-- Out of sync only the good count moves. -/
theorem Port.taken_of_down (hup : y.up = false) :
    y.taken x cap p = { y with good := (Port.count p (arrivalAt x p) y).good } := by
  rw [Port.taken, Port.receive_of_down hup, Port.count_of_down hup]

/-- With a first piece a port holds that piece alone, with the capture record of the frame. -/
theorem Port.taken_first {spaced : Bool} {f : LegFrame} (hup : y.up = true) (ha : arrivalAt x p = .arrived spaced f)
    (h : goodControl p f.control = true) (hbits : f.control.toNat % 4 = 3) :
    (y.taken x cap p).assembler = { pieces := [f.fragment], capture := cap } := by
  rw [(Port.taken_assembler x cap).1, ha, Port.receive_first hup h hbits]

/-- With the fourth piece a port holds none, and has received one cell more. -/
theorem Port.taken_fourth {spaced : Bool} {f : LegFrame} {u v w : Fragment} (hup : y.up = true)
    (ha : arrivalAt x p = .arrived spaced f) (h : goodControl p f.control = true) (hbits : f.control.toNat % 4 = 1)
    (hpieces : y.assembler.pieces = [u, v, w]) :
    (y.taken x cap p).assembler.pieces = [] ∧ (y.taken x cap p).received = bump y.received := by
  obtain ⟨hassembler, hreceived⟩ := Port.taken_assembler x cap (p := p) (y := y)
  rw [hassembler, hreceived, ha, Port.receive_fourth hup h hbits hpieces]
  exact ⟨rfl, rfl⟩

end

/-- The counts of a port in a frame. -/
theorem Port.taken_counts (x : FrameInput) (cap : Capture) (p : Fin 5) (y : Port) :
    (y.up = true →
      (arrivedGood p (arrivalAt x p) = true → (y.taken x cap p).bad = 0 ∧ (y.taken x cap p).badFrames = y.badFrames)
      ∧ (¬arrivedGood p (arrivalAt x p) = true → (y.taken x cap p).bad = y.bad + 1
          ∧ (y.taken x cap p).badFrames = bump y.badFrames ∧ (y.taken x cap p).assembler.pieces = []))
    ∧ (y.up = false →
      (∀ f, arrivalAt x p = .arrived true f ∧ goodControl p f.control = true → (y.taken x cap p).good = y.good + 1)
      ∧ (∀ f, arrivalAt x p = .arrived false f ∧ goodControl p f.control = true → (y.taken x cap p).good = 1)
      ∧ (¬arrivedGood p (arrivalAt x p) = true → (y.taken x cap p).good = 0)
      ∧ (y.taken x cap p).badFrames = y.badFrames ∧ (y.taken x cap p).assembler = y.assembler) := by
  refine ⟨fun hup => ⟨Port.taken_of_up_good x cap hup, fun h => ?_⟩, fun hup => ?_⟩
  · exact Port.taken_of_up_bad x cap hup (Bool.eq_false_iff.2 h)
  · rw [Port.taken_of_down x cap hup]
    refine ⟨?_, ?_, fun h => Port.count_good_of_missed hup (Bool.eq_false_iff.2 h), rfl, rfl⟩
    all_goals
      rintro f ⟨ha, hf⟩
      rw [ha]
      exact Port.count_good_of_found hup hf

/-! ## The row that a received cell is -/

theorem beginFrame_contains_cell (x : FrameInput) (s : State) {p : Fin 5} {r : Cell × Capture} {e : Instr}
    (h : (s.ports[p].sendPiece.receive p s.capture (arrivalAt x p)).2 = some r) (he : e ∈ cellEvent p (some r)) :
    (beginFrame x s).due.contains e = true := by
  rw [List.contains_eq_mem, decide_eq_true_eq, beginFrame_due]
  refine List.mem_append_right _ (List.mem_flatMap.2 ⟨p, List.mem_finRange p, List.mem_append_right _ ?_⟩)
  rwa [h]

/-! ## The sync changes that fall due -/

section
variable (x : FrameInput) (s : State)

theorem beginFrame_port_up (p : Fin 5) : (beginFrame x s).ports[p].up = s.ports[p].up := (beginFrame_link x s p).2.1

theorem beginFrame_trunkSyncLoss : (beginFrame x s).due.contains .trunkSyncLoss
    = (s.ports[trunkPort].up && decide (4 ≤ (beginFrame x s).ports[trunkPort].bad)) := by
  rw [beginFrame_contains x s rfl, ← beginFrame_port_up x s]
  simp [mem_frameEvents, mem_syncEvent]

theorem beginFrame_trunkSyncGain : (beginFrame x s).due.contains .trunkSyncGain
    = (!s.ports[trunkPort].up && decide (2 ≤ (beginFrame x s).ports[trunkPort].good)) := by
  rw [beginFrame_contains x s rfl, ← beginFrame_port_up x s]
  simp [mem_frameEvents, mem_syncEvent]

theorem beginFrame_legDown (l : Fin 4) : (beginFrame x s).due.contains (.legDown l)
    = (s.ports[legPort l].up && decide (4 ≤ (beginFrame x s).ports[legPort l].bad)) := by
  rw [beginFrame_contains x s rfl, ← beginFrame_port_up x s]
  simp [mem_frameEvents, mem_syncEvent]

theorem beginFrame_legUp (l : Fin 4) : (beginFrame x s).due.contains (.legUp l)
    = (!s.ports[legPort l].up && decide (2 ≤ (beginFrame x s).ports[legPort l].good)) := by
  rw [beginFrame_contains x s rfl, ← beginFrame_port_up x s]
  simp [mem_frameEvents, mem_syncEvent]

end

/-! ## The capture record of a frame (R13) -/

/-- The capture record of a frame holds its time after its millisecond tick and its clock tick. -/
theorem State.capture_eq (s : State) :
    s.capture.elapsed = (if s.tickPhase = 7 then s.elapsed + 1 else s.elapsed)
    ∧ let k := if s.clock.state ≠ .unset ∧ s.clock.framePhase = 7 then s.clock.tick else s.clock
      s.capture.timeOfDay = k.timeOfDay ∧ s.capture.day = k.day := by
  have hticks : s.ticksClock = true ↔ s.clock.state ≠ .unset ∧ s.clock.framePhase = 7 := by simp [State.ticksClock]
  simp only [State.capture, frameElapsed_eq, hticks, and_self]

/-! ## The obligation -/

/-- Settles O28: the counts, the assembler and the events of each port, by what arrives at it. -/
theorem framesCounted : Obligations.FramesCounted := by
  intro x s hdue
  obtain ⟨u, hu⟩ : ∃ u, u = countClips s := ⟨_, rfl⟩
  have hfix {β : Type} (part : State → β) (h : ∀ t, part t.offClips = part t) : part u = part s :=
    hu ▸ countClips_fixes part h s
  have hports : u.ports = s.ports := hfix State.ports fun _ => rfl
  have hcapture : u.capture = s.capture := hfix State.capture fun _ => rfl
  have hanswer : exec (.frame x) s = .next (beginFrame x u) := hu ▸ exec_frame_of_due_nil x hdue
  refine ⟨beginFrame x u, hanswer, ?_⟩
  dsimp only
  simp only [found_iff, ← arrivedGood_iff]
  refine ⟨fun p => ?_, ?_, ?_, fun l => ?_⟩
  · have hport := beginFrame_port x u p
    have hcell {r e} := beginFrame_contains_cell x u (p := p) (r := r) (e := e)
    rw [hports, hcapture] at hport hcell
    obtain ⟨hinSync, houtOfSync⟩ := Port.taken_counts x s.capture p s.ports[p].sendPiece
    rw [hport]
    refine ⟨Port.taken_up .., hinSync, houtOfSync, ?_⟩
    rintro spaced f hup ⟨ha, hf⟩
    have hup : s.ports[p].sendPiece.up = true := hup
    refine ⟨fun hbits => ?_, fun a b d hbits hpieces => ?_⟩
    · rw [Port.taken_first x s.capture hup ha hf hbits]
      exact ⟨rfl, s.capture_eq⟩
    · have hpieces : s.ports[p].sendPiece.assembler.pieces = [a, b, d] := hpieces
      obtain ⟨hnone, hreceived⟩ := Port.taken_fourth x s.capture hup ha hf hbits hpieces
      rw [ha, Port.receive_fourth hup hf hbits hpieces] at hcell
      refine ⟨hnone, hreceived, hcell rfl ?_⟩
      unfold cellEvent
      cases portLeg p <;> exact List.mem_singleton.2 rfl
  · rw [beginFrame_trunkSyncLoss, hports]
  · rw [beginFrame_trunkSyncGain, hports]
  · rw [beginFrame_legDown, beginFrame_legUp, hports]
    exact ⟨rfl, rfl⟩

end Sys2Proof.Machine
end
